-- ==== Sys2Proof/Word.lean ====
section
/-! DEFINITION. The word types of the machine. Every value is unsigned (spec/00_scope.md R6);
bit 0 is the least significant bit. -/

namespace Sys2Proof

/-- A general register, a timer, a byte of memory (10_state.md R20, R26, R27, R33). -/
abbrev Byte := BitVec 8

/-- An instruction word, `PC`, `I`, a stack entry (10_state.md R22, R23, R25; 30_encoding.md R70). -/
abbrev Word := BitVec 16

/-- The fields `X` and `Y`: the number of a general register (30_encoding.md R71), and `TARGET`
(10_state.md R29). -/
abbrev RegNum := BitVec 4

/-- The field `N`: a nibble (30_encoding.md R71). -/
abbrev Nibble := BitVec 4

/-- The field `NNN`: a 12-bit address operand (30_encoding.md R71). -/
abbrev Addr := BitVec 12

/-- `VF`, the flag register: register number 15 (10_state.md R21). -/
abbrev regF : RegNum := 15#4

end Sys2Proof
end

