-- ==== Sys2Proof/Syntax.lean ====
section
/-! DEFINITION. The 35 instructions (spec/30_encoding.md R80), one constructor a row of
spec/opcode_table.json, in the table's order. Bits the decoder ignores (R81) have no field. -/

namespace Sys2Proof

/-- An instruction with its operands: `x`, `y` register numbers, `nn` a byte, `n` a nibble, `nnn` a
12-bit address (30_encoding.md R71, R72). -/
inductive Instr
  /-- `0NNN`, SYS: the machine-code call (R118). -/
  | sys (nnn : Addr)
  /-- `00E0`, CLS (R151). -/
  | cls
  /-- `00EE`, RET (R112). -/
  | ret
  /-- `1NNN`, JP (R110). -/
  | jp (nnn : Addr)
  /-- `2NNN`, CALL (R111). -/
  | call (nnn : Addr)
  /-- `3XNN`, SE_IMM (R113). -/
  | seImm (x : RegNum) (nn : Byte)
  /-- `4XNN`, SNE_IMM (R114). -/
  | sneImm (x : RegNum) (nn : Byte)
  /-- `5XY0`, SE_REG (R115). -/
  | seReg (x y : RegNum)
  /-- `6XNN`, LD_IMM (R125). -/
  | ldImm (x : RegNum) (nn : Byte)
  /-- `7XNN`, ADD_IMM (R127). -/
  | addImm (x : RegNum) (nn : Byte)
  /-- `8XY0`, LD_REG (R126). -/
  | ldReg (x y : RegNum)
  /-- `8XY1`, OR (R128). -/
  | orReg (x y : RegNum)
  /-- `8XY2`, AND (R129). -/
  | andReg (x y : RegNum)
  /-- `8XY3`, XOR (R130). -/
  | xorReg (x y : RegNum)
  /-- `8XY4`, ADD_REG (R131). -/
  | addReg (x y : RegNum)
  /-- `8XY5`, SUB (R132). -/
  | sub (x y : RegNum)
  /-- `8XY6`, SHR; `Y` ignored (R134). -/
  | shr (x : RegNum)
  /-- `8XY7`, SUBN (R133). -/
  | subn (x y : RegNum)
  /-- `8XYE`, SHL; `Y` ignored (R135). -/
  | shl (x : RegNum)
  /-- `9XY0`, SNE_REG (R116). -/
  | sneReg (x y : RegNum)
  /-- `ANNN`, LD_I (R140). -/
  | ldI (nnn : Addr)
  /-- `BNNN`, JP_V0 (R117). -/
  | jpV0 (nnn : Addr)
  /-- `CXNN`, RND (R136). -/
  | rnd (x : RegNum) (nn : Byte)
  /-- `DXYN`, DRW (R152). -/
  | drw (x y : RegNum) (n : Nibble)
  /-- `EX9E`, SKP (R155). -/
  | skp (x : RegNum)
  /-- `EXA1`, SKNP (R156). -/
  | sknp (x : RegNum)
  /-- `FX07`, LD_VX_DT (R157). -/
  | ldVxDt (x : RegNum)
  /-- `FX0A`, LD_VX_K (R158). -/
  | ldVxK (x : RegNum)
  /-- `FX15`, LD_DT_VX (R159). -/
  | ldDtVx (x : RegNum)
  /-- `FX18`, LD_ST_VX (R160). -/
  | ldStVx (x : RegNum)
  /-- `FX1E`, ADD_I (R141). -/
  | addI (x : RegNum)
  /-- `FX29`, LD_F (R142). -/
  | ldF (x : RegNum)
  /-- `FX33`, LD_B (R143). -/
  | ldB (x : RegNum)
  /-- `FX55`, ST_REGS (R144). -/
  | stRegs (x : RegNum)
  /-- `FX65`, LD_REGS (R145). -/
  | ldRegs (x : RegNum)
  deriving DecidableEq, Repr

end Sys2Proof
end

