-- ==== Sys2Proof/WellFormed.lean ====
section
/-! DEFINITION. Which terms of `Instr` are instructions of the machine. The field widths are in the
types; the one further check is SYS's: a word `0NNN` whose low byte is 0xE0 or 0xEE is CLS or RET
(spec/30_encoding.md R76, R86; 41_control_flow.md R118). -/

namespace Sys2Proof

/-- The operand of SYS does not have the low byte of CLS or of RET (R118). -/
def sysOperandWf (nnn : Addr) : Bool :=
  nnn.extractLsb' 0 8 != 0xE0#8 && nnn.extractLsb' 0 8 != 0xEE#8

/-- The instruction is one the decoder can read from a word. -/
def Instr.wf : Instr → Bool
  | .sys nnn => sysOperandWf nnn
  | .cls | .ret | .jp _ | .call _ | .seImm _ _ | .sneImm _ _ | .seReg _ _ => true
  | .ldImm _ _ | .addImm _ _ | .ldReg _ _ | .orReg _ _ | .andReg _ _ | .xorReg _ _ => true
  | .addReg _ _ | .sub _ _ | .shr _ | .subn _ _ | .shl _ | .sneReg _ _ => true
  | .ldI _ | .jpV0 _ | .rnd _ _ | .drw _ _ _ | .skp _ | .sknp _ => true
  | .ldVxDt _ | .ldVxK _ | .ldDtVx _ | .ldStVx _ | .addI _ | .ldF _ | .ldB _ => true
  | .stRegs _ | .ldRegs _ => true

end Sys2Proof
end

