-- ==== Sys2Proof/Decode.lean ====
section
/-! DEFINITION. The decoder (spec/30_encoding.md R71, R75 to R79, R85), total on any bytes and
rejecting by name; the encoder; and the opcode table as rows of mask and match (R86), the same
dispatch written a second way. The numeric opcode values are the spec's, from general knowledge (log 9). -/

namespace Sys2Proof

/-- Why a list of bytes starts with no instruction. -/
inductive Reject
  /-- Fewer than two bytes are left: an instruction is one 16-bit word (R70). The machine never raises it. -/
  | truncated (bytes : Nat)
  /-- Family 8 with a low nibble that selects nothing (R77, R82): executed by R98. -/
  | unrecognised8 (w : Word)
  /-- Family E with a low byte that selects nothing (R78, R82): executed by R98. -/
  | unrecognisedE (w : Word)
  /-- Family F with a low byte that selects nothing (R79, R82): executed by R98. -/
  | unrecognisedF (w : Word)
  deriving DecidableEq, Repr

/-- `OP = w[15:12]` (R71). -/
def fieldOp (w : Word) : BitVec 4 := w.extractLsb' 12 4
/-- `X = w[11:8]` (R71). -/
def fieldX (w : Word) : RegNum := w.extractLsb' 8 4
/-- `Y = w[7:4]` (R71). -/
def fieldY (w : Word) : RegNum := w.extractLsb' 4 4
/-- `N = w[3:0]` (R71). -/
def fieldN (w : Word) : Nibble := w.extractLsb' 0 4
/-- `NN = w[7:0]` (R71). -/
def fieldNN (w : Word) : Byte := w.extractLsb' 0 8
/-- `NNN = w[11:0]` (R71). -/
def fieldNNN (w : Word) : Addr := w.extractLsb' 0 12

/-- The second switch of family 0, on the low byte (R76). -/
def decode0 (w : Word) : Instr :=
  if fieldNN w = 0xE0#8 then .cls
  else if fieldNN w = 0xEE#8 then .ret
  else .sys (fieldNNN w)

/-- The second switch of family 8, on the low nibble (R77). -/
def decode8 (w : Word) : Except Reject Instr :=
  if fieldN w = 0x0#4 then .ok (.ldReg (fieldX w) (fieldY w))
  else if fieldN w = 0x1#4 then .ok (.orReg (fieldX w) (fieldY w))
  else if fieldN w = 0x2#4 then .ok (.andReg (fieldX w) (fieldY w))
  else if fieldN w = 0x3#4 then .ok (.xorReg (fieldX w) (fieldY w))
  else if fieldN w = 0x4#4 then .ok (.addReg (fieldX w) (fieldY w))
  else if fieldN w = 0x5#4 then .ok (.sub (fieldX w) (fieldY w))
  else if fieldN w = 0x6#4 then .ok (.shr (fieldX w))
  else if fieldN w = 0x7#4 then .ok (.subn (fieldX w) (fieldY w))
  else if fieldN w = 0xE#4 then .ok (.shl (fieldX w))
  else .error (.unrecognised8 w)

/-- The second switch of family E, on the low byte (R78). -/
def decodeE (w : Word) : Except Reject Instr :=
  if fieldNN w = 0x9E#8 then .ok (.skp (fieldX w))
  else if fieldNN w = 0xA1#8 then .ok (.sknp (fieldX w))
  else .error (.unrecognisedE w)

/-- The second switch of family F, on the low byte (R79). -/
def decodeF (w : Word) : Except Reject Instr :=
  if fieldNN w = 0x07#8 then .ok (.ldVxDt (fieldX w))
  else if fieldNN w = 0x0A#8 then .ok (.ldVxK (fieldX w))
  else if fieldNN w = 0x15#8 then .ok (.ldDtVx (fieldX w))
  else if fieldNN w = 0x18#8 then .ok (.ldStVx (fieldX w))
  else if fieldNN w = 0x1E#8 then .ok (.addI (fieldX w))
  else if fieldNN w = 0x29#8 then .ok (.ldF (fieldX w))
  else if fieldNN w = 0x33#8 then .ok (.ldB (fieldX w))
  else if fieldNN w = 0x55#8 then .ok (.stRegs (fieldX w))
  else if fieldNN w = 0x65#8 then .ok (.ldRegs (fieldX w))
  else .error (.unrecognisedF w)

/-- `Decode(w)` of R85: the first switch, on the high nibble (R75). -/
def decodeWord (w : Word) : Except Reject Instr :=
  if fieldOp w = 0x0#4 then .ok (decode0 w)
  else if fieldOp w = 0x1#4 then .ok (.jp (fieldNNN w))
  else if fieldOp w = 0x2#4 then .ok (.call (fieldNNN w))
  else if fieldOp w = 0x3#4 then .ok (.seImm (fieldX w) (fieldNN w))
  else if fieldOp w = 0x4#4 then .ok (.sneImm (fieldX w) (fieldNN w))
  else if fieldOp w = 0x5#4 then .ok (.seReg (fieldX w) (fieldY w))
  else if fieldOp w = 0x6#4 then .ok (.ldImm (fieldX w) (fieldNN w))
  else if fieldOp w = 0x7#4 then .ok (.addImm (fieldX w) (fieldNN w))
  else if fieldOp w = 0x8#4 then decode8 w
  else if fieldOp w = 0x9#4 then .ok (.sneReg (fieldX w) (fieldY w))
  else if fieldOp w = 0xA#4 then .ok (.ldI (fieldNNN w))
  else if fieldOp w = 0xB#4 then .ok (.jpV0 (fieldNNN w))
  else if fieldOp w = 0xC#4 then .ok (.rnd (fieldX w) (fieldNN w))
  else if fieldOp w = 0xD#4 then .ok (.drw (fieldX w) (fieldY w) (fieldN w))
  else if fieldOp w = 0xE#4 then decodeE w
  else decodeF w

/-- The big-endian word of two consecutive bytes: the byte at the lower address is bits 15 to 8
(20_memory.md R52). -/
def wordOfBytes (hi lo : Byte) : Word := hi ++ lo

/-- The instruction at the front of a list of bytes, with the bytes after it. -/
def decodeBytes : List Byte → Except Reject (Instr × List Byte)
  | hi :: lo :: rest => (decodeWord (wordOfBytes hi lo)).map (fun i => (i, rest))
  | bytes => .error (.truncated bytes.length)

/-- The instruction the decoder reads from an instruction of the opcode table's numbering: bit 0 of `w`
is bit 0 of the one 16-bit word, which lies in memory high byte first (20_memory.md R52). -/
def decodeTableWord (nbits w : Nat) : Option Instr :=
  let word : Word := BitVec.ofNat 16 (w % 2 ^ nbits)
  match decodeBytes [word.extractLsb' 8 8, word.extractLsb' 0 8] with
  | .ok (i, _) => some i
  | .error _ => none

/-! ## The encoder -/

/-- Format `ADDR`: `oNNN` (R73). -/
def wordAddr (op : BitVec 4) (nnn : Addr) : Word := op ++ nnn
/-- Formats `XNN` and `X`: `oXNN` (R73). -/
def wordXNN (op : BitVec 4) (x : RegNum) (nn : Byte) : Word := (op ++ x) ++ nn
/-- Formats `XYN` and `XY`: `oXYN` (R73). -/
def wordXYN (op : BitVec 4) (x y : RegNum) (n : Nibble) : Word := ((op ++ x) ++ y) ++ n

/-- The canonical word of an instruction (R75 to R79, R83): ignored bits are 0 (R81). -/
def encode : Instr → Word
  | .sys nnn => wordAddr 0x0#4 nnn
  | .cls => wordAddr 0x0#4 0x0E0#12
  | .ret => wordAddr 0x0#4 0x0EE#12
  | .jp nnn => wordAddr 0x1#4 nnn
  | .call nnn => wordAddr 0x2#4 nnn
  | .seImm x nn => wordXNN 0x3#4 x nn
  | .sneImm x nn => wordXNN 0x4#4 x nn
  | .seReg x y => wordXYN 0x5#4 x y 0x0#4
  | .ldImm x nn => wordXNN 0x6#4 x nn
  | .addImm x nn => wordXNN 0x7#4 x nn
  | .ldReg x y => wordXYN 0x8#4 x y 0x0#4
  | .orReg x y => wordXYN 0x8#4 x y 0x1#4
  | .andReg x y => wordXYN 0x8#4 x y 0x2#4
  | .xorReg x y => wordXYN 0x8#4 x y 0x3#4
  | .addReg x y => wordXYN 0x8#4 x y 0x4#4
  | .sub x y => wordXYN 0x8#4 x y 0x5#4
  | .shr x => wordXYN 0x8#4 x 0x0#4 0x6#4
  | .subn x y => wordXYN 0x8#4 x y 0x7#4
  | .shl x => wordXYN 0x8#4 x 0x0#4 0xE#4
  | .sneReg x y => wordXYN 0x9#4 x y 0x0#4
  | .ldI nnn => wordAddr 0xA#4 nnn
  | .jpV0 nnn => wordAddr 0xB#4 nnn
  | .rnd x nn => wordXNN 0xC#4 x nn
  | .drw x y n => wordXYN 0xD#4 x y n
  | .skp x => wordXNN 0xE#4 x 0x9E#8
  | .sknp x => wordXNN 0xE#4 x 0xA1#8
  | .ldVxDt x => wordXNN 0xF#4 x 0x07#8
  | .ldVxK x => wordXNN 0xF#4 x 0x0A#8
  | .ldDtVx x => wordXNN 0xF#4 x 0x15#8
  | .ldStVx x => wordXNN 0xF#4 x 0x18#8
  | .addI x => wordXNN 0xF#4 x 0x1E#8
  | .ldF x => wordXNN 0xF#4 x 0x29#8
  | .ldB x => wordXNN 0xF#4 x 0x33#8
  | .stRegs x => wordXNN 0xF#4 x 0x55#8
  | .ldRegs x => wordXNN 0xF#4 x 0x65#8

/-- The two bytes of an instruction as they lie in memory, high byte first (20_memory.md R52). -/
def encodeBytes (i : Instr) : List Byte :=
  [(encode i).extractLsb' 8 8, (encode i).extractLsb' 0 8]

/-! ## The opcode table (R86) -/

/-- The mnemonic of the instruction's row in spec/opcode_table.json. -/
def Instr.mnemonic : Instr → String
  | .sys _ => "SYS" | .cls => "CLS" | .ret => "RET" | .jp _ => "JP" | .call _ => "CALL"
  | .seImm _ _ => "SE_IMM" | .sneImm _ _ => "SNE_IMM" | .seReg _ _ => "SE_REG"
  | .ldImm _ _ => "LD_IMM" | .addImm _ _ => "ADD_IMM" | .ldReg _ _ => "LD_REG"
  | .orReg _ _ => "OR" | .andReg _ _ => "AND" | .xorReg _ _ => "XOR"
  | .addReg _ _ => "ADD_REG" | .sub _ _ => "SUB" | .shr _ => "SHR" | .subn _ _ => "SUBN"
  | .shl _ => "SHL" | .sneReg _ _ => "SNE_REG" | .ldI _ => "LD_I" | .jpV0 _ => "JP_V0"
  | .rnd _ _ => "RND" | .drw _ _ _ => "DRW" | .skp _ => "SKP" | .sknp _ => "SKNP"
  | .ldVxDt _ => "LD_VX_DT" | .ldVxK _ => "LD_VX_K" | .ldDtVx _ => "LD_DT_VX"
  | .ldStVx _ => "LD_ST_VX" | .addI _ => "ADD_I" | .ldF _ => "LD_F" | .ldB _ => "LD_B"
  | .stRegs _ => "ST_REGS" | .ldRegs _ => "LD_REGS"

/-- A row of spec/opcode_table.json: a word is the row's when its bits under `mask` are `pattern`. -/
structure OpRow where
  mnemonic : String
  mask : Word
  pattern : Word
  deriving DecidableEq, Repr

/-- The word matches the row (R86). -/
def OpRow.hits (r : OpRow) (w : Word) : Bool := w &&& r.mask == r.pattern

/-- The rows of spec/opcode_table.json but SYS, in the table's order (R86). -/
def opcodeRows : List OpRow :=
  [⟨"CLS", 0xF0FF, 0x00E0⟩, ⟨"RET", 0xF0FF, 0x00EE⟩, ⟨"JP", 0xF000, 0x1000⟩,
   ⟨"CALL", 0xF000, 0x2000⟩, ⟨"SE_IMM", 0xF000, 0x3000⟩, ⟨"SNE_IMM", 0xF000, 0x4000⟩,
   ⟨"SE_REG", 0xF000, 0x5000⟩, ⟨"LD_IMM", 0xF000, 0x6000⟩, ⟨"ADD_IMM", 0xF000, 0x7000⟩] ++
  [⟨"LD_REG", 0xF00F, 0x8000⟩, ⟨"OR", 0xF00F, 0x8001⟩, ⟨"AND", 0xF00F, 0x8002⟩,
   ⟨"XOR", 0xF00F, 0x8003⟩, ⟨"ADD_REG", 0xF00F, 0x8004⟩, ⟨"SUB", 0xF00F, 0x8005⟩,
   ⟨"SHR", 0xF00F, 0x8006⟩, ⟨"SUBN", 0xF00F, 0x8007⟩, ⟨"SHL", 0xF00F, 0x800E⟩,
   ⟨"SNE_REG", 0xF000, 0x9000⟩, ⟨"LD_I", 0xF000, 0xA000⟩, ⟨"JP_V0", 0xF000, 0xB000⟩,
   ⟨"RND", 0xF000, 0xC000⟩, ⟨"DRW", 0xF000, 0xD000⟩] ++
  [⟨"SKP", 0xF0FF, 0xE09E⟩, ⟨"SKNP", 0xF0FF, 0xE0A1⟩, ⟨"LD_VX_DT", 0xF0FF, 0xF007⟩,
   ⟨"LD_VX_K", 0xF0FF, 0xF00A⟩, ⟨"LD_DT_VX", 0xF0FF, 0xF015⟩, ⟨"LD_ST_VX", 0xF0FF, 0xF018⟩,
   ⟨"ADD_I", 0xF0FF, 0xF01E⟩, ⟨"LD_F", 0xF0FF, 0xF029⟩, ⟨"LD_B", 0xF0FF, 0xF033⟩,
   ⟨"ST_REGS", 0xF0FF, 0xF055⟩, ⟨"LD_REGS", 0xF0FF, 0xF065⟩]

/-- SYS's row, of the lowest priority: "taken only when no row with a longer mask matches" (R86). -/
def sysRow : OpRow := ⟨"SYS", 0xF000, 0x0000⟩

/-- The row a word selects, by mask and match. -/
def tableRow (w : Word) : Option OpRow := (opcodeRows ++ [sysRow]).find? (·.hits w)

end Sys2Proof
end

