-- ==== Sys2Proof/Config.lean ====
section
/-! DEFINITION. What an implementation fixes (the parameters of spec/00_scope.md R5) and the free
values: what the spec leaves open on every run. A free value is an opaque constant: nothing in Lean
can evaluate it. -/

namespace Sys2Proof

/-- The open parameters of 00_scope.md R5. `State` carries one such record, which no step changes, so
every statement about all states holds for every choice of them (log 2). -/
structure Config where
  /-- `TIMER_PERIOD`: time quanta in 1/60 second (R5, R177). -/
  timerPeriod : Nat
  /-- `INSTR_INTERVAL`: the instruction cadence (R5, R93). -/
  instrInterval : Nat
  /-- `REDRAW_INTERVAL`: the redraw cadence (R5, R180). -/
  redrawInterval : Nat
  /-- `FONT`: the content of memory bytes 0 to 79 after reset (R5, R197). -/
  font : Vector Byte 80
  /-- `SYS_DIAG`: whether SYS pulses the diagnostic (R5, R118). -/
  sysDiag : Bool
  deriving DecidableEq, Repr

/-- The constraint of R5: the three times are greater than 0. -/
abbrev Config.wf (c : Config) : Prop :=
  0 < c.timerPeriod ∧ 0 < c.instrInterval ∧ 0 < c.redrawInterval

/-- The default font of 70_reset_and_hazards.md R197, one row a digit. -/
def standardFont : Vector Byte 80 := #v[
  0xF0, 0x90, 0x90, 0x90, 0xF0,  0x20, 0x60, 0x20, 0x20, 0x70,
  0xF0, 0x10, 0xF0, 0x80, 0xF0,  0xF0, 0x10, 0xF0, 0x10, 0xF0,
  0x90, 0x90, 0xF0, 0x10, 0x10,  0xF0, 0x80, 0xF0, 0x10, 0xF0,
  0xF0, 0x80, 0xF0, 0x90, 0xF0,  0xF0, 0x10, 0x20, 0x40, 0x40,
  0xF0, 0x90, 0xF0, 0x90, 0xF0,  0xF0, 0x90, 0xF0, 0x10, 0xF0,
  0xF0, 0x90, 0xF0, 0x90, 0x90,  0xE0, 0x90, 0xE0, 0x90, 0xE0,
  0xF0, 0x80, 0x80, 0x80, 0xF0,  0xE0, 0x90, 0x90, 0x90, 0xE0,
  0xF0, 0x80, 0xF0, 0x80, 0xF0,  0xF0, 0x80, 0xF0, 0x80, 0x80]

/-- The parameters that `State.reset` carries. DESIGN CHOICE: the three times are 1 (the spec gives no
value); the font and `SYS_DIAG` are the spec's defaults (log 2). -/
def Config.initial : Config :=
  { timerPeriod := 1, instrInterval := 1, redrawInterval := 1, font := standardFont, sysDiag := true }

/-- What `LD_F` writes to `I` when `V[X] > 15` (43_index_memory.md R142), for the frame of that number:
a free value (log 3). -/
opaque Config.freeIndex : Nat → Word

/-- The input `dt` of the frame of that number, when the host's list is used up: a free value (log 1). -/
opaque Config.freeElapsed : Nat → Nat

/-- The input `key` of the frame of that number, when the host's list is used up: a free value (log 1). -/
opaque Config.freeKey : Nat → Option Byte

/-- The 16 key levels of the frame of that number, when the host's list is used up: a free value (log 1). -/
opaque Config.freeKeys : Nat → BitVec 16

/-- The random byte of the frame of that number, when the host's list is used up: a free value (log 1). -/
opaque Config.freeRnd : Nat → Byte

end Sys2Proof
end

