-- ==== Sys2Proof/Machine/State.lean ====
section
/-! DEFINITION. The state of the machine: everything spec/10_state.md R20 to R34 names, the open
parameters of 00_scope.md R5, and the model's own fields (its inputs, its pulsed outputs, the frame
counter of the free values). Plain data. -/

namespace Sys2Proof.Machine

/-- `STATUS` (10_state.md R28, 60_exceptions.md R165): the halt condition, if any. -/
inductive Status
  /-- No halt. -/
  | none
  /-- CALL with a full stack (R111). -/
  | stackOverflow
  /-- RET with an empty stack (R112). -/
  | stackUnderflow
  /-- The counter left the program after an instruction (R97). -/
  | outOfBounds
  /-- A reserved name, "never set by this hardware" (R28, R165; log 23). -/
  | arithmeticOverflow
  deriving DecidableEq, Repr

/-- The 3-bit codes of R28 and R165. -/
def Status.code : Status → BitVec 3
  | .none => 0
  | .stackOverflow => 1
  | .stackUnderflow => 2
  | .outOfBounds => 3
  | .arithmeticOverflow => 4

/-- The host's inputs of one frame (10_state.md R38). -/
structure FrameInput where
  /-- `dt`: elapsed time quanta since the previous frame. -/
  elapsed : Nat
  /-- `key`: the delivered key code, if any. -/
  key : Option Byte
  /-- `keys[0..15]`: bit `k` says that key `k` is held. -/
  keys : BitVec 16
  /-- `rnd`: the random byte. -/
  rnd : Byte
  deriving DecidableEq, Repr

/-- The frame buffer: 32 rows `y` of 64 pixels `x` (10_state.md R31). -/
abbrev Display := Vector (Vector Bool 64) 32

/-- The blank display: every pixel 0. -/
def Display.blank : Display := Vector.replicate 32 (Vector.replicate 64 false)

/-- The bytes of memory that differ from what an unlisted address reads as (`unlisted`, in
Machine/Ops.lean), in the canonical form `Memory.wf`. -/
abbrev Memory := List Host.Cell

structure State where
  /-- `V[0..15]` (R20). -/
  v : Vector Byte 16
  /-- `PC` (R22). -/
  pc : Word
  /-- `I` (R23). -/
  i : Word
  /-- `SP`, 0 to 16 (R24). -/
  sp : Fin 17
  /-- `STACK[0..15]` (R25). -/
  stack : Vector Word 16
  /-- `DT` (R26). -/
  dt : Byte
  /-- `ST` (R27). -/
  st : Byte
  /-- `STATUS` (R28). -/
  status : Status
  /-- `AWAIT` (R29). -/
  awaiting : Bool
  /-- `TARGET` (R29). -/
  target : RegNum
  /-- `acc_instr` (R30). -/
  accInstr : Nat
  /-- `acc_delay` (R30). -/
  accDelay : Nat
  /-- `acc_sound` (R30). -/
  accSound : Nat
  /-- `acc_redraw` (R30). -/
  accRedraw : Nat
  /-- `FB` (R31). -/
  fb : Display
  /-- `DIRTY` (R32). -/
  dirty : Bool
  /-- `MEM` (R33). -/
  mem : Memory
  /-- `PROG_END` (R34). -/
  progEnd : BitVec 13
  /-- The open parameters (R5; log 2); no step changes them. -/
  cfg : Config
  /-- The model's own: the inputs of the frames to come, the next first (R38; log 1). -/
  inputs : List FrameInput
  /-- The model's own: how many frames have been called, the argument of the free values (log 1, log 3). -/
  frames : Nat
  /-- The model's own: the diagnostic pulse of the last frame (R37 (g); log 4). -/
  diag : Option Word
  /-- The model's own: the render pulse of the last frame (R37 (d); log 4). -/
  render : Bool
  deriving DecidableEq, Repr

/-- Why the machine stops with a fault: nothing. Every word has a defined effect (30_encoding.md R82),
no access faults (20_memory.md R50), and the three halts are values of `STATUS` (60_exceptions.md R171),
so this type is empty (log 22). Safe: no run is cut short. -/
inductive Fault
  deriving DecidableEq, Repr

/-- Why the model refuses. -/
inductive Refusal
  /-- An instruction that has no meaning yet; raised by `exec`'s arm of that instruction alone. No arm
  raises it. Safe. -/
  | notModelled (mnemonic : String)
  /-- A load of more than 3584 bytes "has no defined result; a model refuses it"
  (70_reset_and_hazards.md R196); raised by `load` alone, never by a step. Safe. -/
  | programTooLong (bytes : Nat)
  deriving DecidableEq, Repr

/-- What a step answers. -/
abbrev Outcome := Host.Outcome State Fault Refusal

/-- The machine right after the load of the empty program (10_state.md R36, 70_reset_and_hazards.md
R195; log 2, log 6, log 7). -/
def State.reset : State :=
  { v := Vector.replicate 16 0, pc := 0x200, i := 0, sp := 0, stack := Vector.replicate 16 0,
    dt := 0, st := 0, status := .none, awaiting := false, target := 0,
    accInstr := 0, accDelay := 0, accSound := 0, accRedraw := 0,
    fb := Display.blank, dirty := false, mem := [], progEnd := 0x200,
    cfg := Config.initial, inputs := [], frames := 0, diag := .none, render := false }

end Sys2Proof.Machine
end

