-- ==== Sys2Proof/Machine/Ops.lean ====
section
/-! DEFINITION. The named operations over memory, registers, the stack, the status, the display, the
timers and the inputs. Every instruction and every part of a frame goes through them. -/

namespace Sys2Proof.Machine

/-! ## Memory (spec/20_memory.md) -/

/-- `addr & 0xFFF` (R50). -/
def maskAddr (a : Nat) : Nat := a % 4096

/-- What an address of the memory list that is not listed reads as: the reset content before a program
is copied in, the font at 0 to 79 and 0 elsewhere (10_state.md R36, R56; log 8). -/
def unlisted (font : Vector Byte 80) (a : Nat) : Byte := font[a]?.getD 0

/-- The byte listed at an address. -/
def cellLookup : Memory → Nat → Option Byte
  | [], _ => none
  | c :: m, a => if c.1 = a then some c.2 else cellLookup m a

/-- The list without the address. -/
def cellErase : Memory → Nat → Memory
  | [], _ => []
  | c :: m, a => if c.1 = a then cellErase m a else c :: cellErase m a

/-- The list with the byte at the address, in rising order. -/
def cellInsert : Memory → Nat → Byte → Memory
  | [], a, b => [(a, b)]
  | c :: m, a, b =>
    if a < c.1 then (a, b) :: c :: m
    else if a = c.1 then (a, b) :: m
    else c :: cellInsert m a b

/-- The list after a write: a byte equal to what the address reads as unlisted leaves the list. -/
def cellWrite (font : Vector Byte 80) (m : Memory) (a : Nat) (b : Byte) : Memory :=
  if b = unlisted font a then cellErase m a else cellInsert m a b

/-- The canonical form: addresses strictly rising and below 4096, no entry equal to what an unlisted
address reads as. -/
abbrev Memory.wf (font : Vector Byte 80) (m : Memory) : Prop :=
  m.Pairwise (fun c d => c.1 < d.1) ∧ ∀ c ∈ m, c.1 < 4096 ∧ c.2 ≠ unlisted font c.1

/-- `MemRead(addr, 1)` (R51). -/
def State.memRead (s : State) (a : Nat) : Byte :=
  (cellLookup s.mem (maskAddr a)).getD (unlisted s.cfg.font (maskAddr a))

/-- `MemWrite(addr, 1, b)` (R51). -/
def State.memWrite (s : State) (a : Nat) (b : Byte) : State :=
  { s with mem := cellWrite s.cfg.font s.mem (maskAddr a) b }

/-- Single-byte reads at ascending addresses, the first at `a` (R53). -/
def State.readBytes (s : State) (a n : Nat) : List Byte :=
  (List.range n).map (fun k => s.memRead (a + k))

/-- Single-byte writes at ascending addresses, the first at `a` (R53). -/
def State.writeBytes (s : State) (a : Nat) : List Byte → State
  | [] => s
  | b :: bs => (s.memWrite a b).writeBytes (a + 1) bs

/-- `Fetch(PC)`, big-endian, both addresses masked (R52). -/
def State.fetchWord (s : State) : Word :=
  s.memRead s.pc.toNat ++ s.memRead (s.pc.toNat + 1)

/-! ## Registers and the program counter (10_state.md R20 to R22; 40_execution_cycle.md R96) -/

/-- `V[x]` read (R20). -/
def State.reg (s : State) (x : RegNum) : Byte := s.v[x.toNat]

/-- `V[x] <- b` (R20). -/
def State.setReg (s : State) (x : RegNum) (b : Byte) : State :=
  { s with v := s.v.set x.toNat b }

/-- The registers `V[k]`, `V[k+1]`, ... take the bytes in order (43_index_memory.md R145). -/
def State.setRegsFrom (s : State) (k : Nat) : List Byte → State
  | [] => s
  | b :: bs => (s.setReg (BitVec.ofNat 4 k) b).setRegsFrom (k + 1) bs

/-- The result is written to `V[x]` first and the flag to `V[15]` last (42_load_alu.md R138; log 12). -/
def State.setResultFlag (s : State) (x : RegNum) (result flag : Byte) : State :=
  (s.setReg x result).setReg regF flag

/-- `PC <- target`. -/
def State.jumpTo (s : State) (target : Word) : State := { s with pc := target }

/-- `PC <- PC + 2`, the generic advance (R96), in 16 bits. -/
def State.advance (s : State) : State := { s with pc := s.pc + 2 }

/-- `PC <- PC + 4` when the condition holds and `PC <- PC + 2` when not (R96). -/
def State.skipIf (s : State) (c : Bool) : State :=
  { s with pc := if c then s.pc + 4 else s.pc + 2 }

/-! ## Taking an exception (60_exceptions.md R165, R166, R171)

There is no handler, no vector, no saved register and no return (R171, R173): raising sets `STATUS`,
and the frames after it change nothing (40_execution_cycle.md R91). -/

/-- `raise e`: sets `STATUS` if it is `None`, and changes nothing else (R166). -/
def State.raise (s : State) (e : Status) : State :=
  if s.status = .none then { s with status := e } else s

/-- The condition of the bounds check: `PC < 0x200` or `PC >= PROG_END` (40_execution_cycle.md R97). -/
def State.pcOutside (s : State) : Bool :=
  decide (s.pc.toNat < 0x200 ∨ s.progEnd.toNat ≤ s.pc.toNat)

/-- `BoundsCheck()` (R97). -/
def State.boundsCheck (s : State) : State :=
  if s.pcOutside then s.raise .outOfBounds else s

/-! ## The return stack (41_control_flow.md R111, R112) -/

/-- CALL's linkage: push the address of the instruction itself and jump; `StackOverflow` when the stack
is full, with `PC`, `SP` and `STACK` unchanged (R111; log 13). -/
def State.pushAndJump (s : State) (target : Word) : State :=
  if h : s.sp.val < 16 then
    { s with stack := s.stack.set s.sp.val s.pc, sp := ⟨s.sp.val + 1, by omega⟩, pc := target }
  else s.raise .stackOverflow

/-- RET's linkage: pop, and continue after the CALL popped; `StackUnderflow` when the stack is empty,
with `PC`, `SP` and `STACK` unchanged (R112; log 13). -/
def State.popAndReturn (s : State) : State :=
  if h : 0 < s.sp.val then
    { s with sp := ⟨s.sp.val - 1, by omega⟩, pc := (s.stack[s.sp.val - 1]'(by omega)) + 2 }
  else s.raise .stackUnderflow

/-! ## Outputs (10_state.md R37) -/

/-- `diag(w)`: the diagnostic pulse (R37 (g)). -/
def State.pulseDiag (s : State) (w : Word) : State := { s with diag := some w }

/-- The diagnostic pulses if the condition holds (41_control_flow.md R118). -/
def State.pulseDiagIf (s : State) (c : Bool) (w : Word) : State :=
  { s with diag := if c then some w else s.diag }

/-- The pulses last one frame: both are down when a frame starts (R37; log 4). -/
def State.clearPulses (s : State) : State := { s with diag := none, render := false }

/-- `sound_on = (ST > 0)` (R37 (c), R184). -/
def State.soundOn (s : State) : Bool := decide (0 < s.st.toNat)

/-! ## The display (44_display.md) -/

/-- `FB[y mod 32][x mod 64]` (R150, R37 (a)). -/
def Display.pixel (fb : Display) (x y : Nat) : Bool :=
  (fb[y % 32]'(Nat.mod_lt _ (by decide)))[x % 64]'(Nat.mod_lt _ (by decide))

/-- `FB[y mod 32][x mod 64] <- FB[y mod 32][x mod 64] ^ 1` (R150). -/
def Display.toggle (fb : Display) (x y : Nat) : Display :=
  fb.set (y % 32)
    ((fb[y % 32]'(Nat.mod_lt _ (by decide))).set (x % 64) (!fb.pixel x y) (Nat.mod_lt _ (by decide)))
    (Nat.mod_lt _ (by decide))

/-- Some pixel is 1 (R151). -/
def Display.anySet (fb : Display) : Bool := fb.toList.any (fun row => row.toList.any id)

/-- `pixel(x, y)` of the state (10_state.md R37 (a)). -/
def State.pixel (s : State) (x y : Nat) : Bool := s.fb.pixel x y

/-- What a draw works on: the buffer and the two marks of R150. -/
structure Canvas where
  fb : Display
  collided : Bool
  toggled : Bool
  deriving DecidableEq, Repr

/-- `Plot(px, py, b)` (R150). -/
def Canvas.plot (c : Canvas) (px py : Nat) (b : Bool) : Canvas :=
  if b then
    { fb := c.fb.toggle px py, collided := c.collided || c.fb.pixel px py, toggled := true }
  else c

/-- The columns of one sprite byte from column `8 - n` on, bit 7 leftmost (R152). -/
def Canvas.plotBits (c : Canvas) (px py : Nat) (bits : Byte) : Nat → Canvas
  | 0 => c
  | n + 1 => (c.plot (px + (7 - n)) py (bits.getLsbD n)).plotBits px py bits n

/-- The rows of a sprite, one byte a row, downwards from `py` (R152). -/
def Canvas.plotRows (c : Canvas) (px py : Nat) : List Byte → Canvas
  | [] => c
  | b :: bs => (c.plotBits px py b 8).plotRows px (py + 1) bs

/-- CLS's effect on the display: `DIRTY` is set if some pixel was 1, and every pixel becomes 0 (R151;
log 20). -/
def State.clearDisplay (s : State) : State :=
  { s with dirty := s.dirty || s.fb.anySet, fb := Display.blank }

/-- DRW's effect on the display: the canvas's buffer, and `DIRTY` if something toggled (R152; log 20). -/
def State.showCanvas (s : State) (c : Canvas) : State :=
  { s with fb := c.fb, dirty := s.dirty || c.toggled }

/-! ## Inputs (10_state.md R38; log 1) -/

/-- The inputs of the current frame: the head of the host's list, or free values beyond it (log 1). -/
def State.frameInput (s : State) : FrameInput :=
  match s.inputs with
  | inp :: _ => inp
  | [] =>
    { elapsed := Config.freeElapsed s.frames, key := Config.freeKey s.frames,
      keys := Config.freeKeys s.frames, rnd := Config.freeRnd s.frames }

/-- `KeyDown(v) = (v <= 15) and keys[v]` (R38 (c); log 19). -/
def State.keyDown (s : State) (b : Byte) : Bool :=
  decide (b.toNat ≤ 15) && s.frameInput.keys.getLsbD b.toNat

/-- The frame is over: its inputs are used up (log 1). -/
def State.endFrame (s : State) : State :=
  { s with inputs := s.inputs.tail, frames := s.frames + 1 }

/-- `DeliverKey(key)`: a code 0 to 15 goes to `V[TARGET]` and ends the wait; anything else changes
nothing (40_execution_cycle.md R92). -/
def State.deliverKey (s : State) : State :=
  match s.frameInput.key with
  | some k => if k.toNat ≤ 15 then { s.setReg s.target k with awaiting := false } else s
  | none => s

/-! ## Timers and the redraw cadence (60_exceptions.md R176 to R180; log 21) -/

/-- One less, "floor at 0" (R177). -/
def decrement (b : Byte) : Byte := if b = 0 then 0 else b - 1

/-- The delay countdown of one frame (R177). -/
def State.delayCountdown (s : State) : State :=
  if s.cfg.timerPeriod ≤ s.accDelay + s.frameInput.elapsed then
    { s with dt := decrement s.dt, accDelay := 0 }
  else { s with accDelay := s.accDelay + s.frameInput.elapsed }

/-- The sound countdown of one frame (R178). -/
def State.soundCountdown (s : State) : State :=
  if s.cfg.timerPeriod ≤ s.accSound + s.frameInput.elapsed then
    { s with st := decrement s.st, accSound := 0 }
  else { s with accSound := s.accSound + s.frameInput.elapsed }

/-- `TimerDecay(dt)`: R177, then R178 (R178). -/
def State.timerDecay (s : State) : State := s.delayCountdown.soundCountdown

/-- `RedrawCadence(dt)` (R180): the accumulator is cleared only when the render fires. -/
def State.redrawCadence (s : State) : State :=
  if s.cfg.redrawInterval ≤ s.accRedraw + s.frameInput.elapsed ∧ s.dirty = true then
    { s with accRedraw := 0, dirty := false, render := true }
  else { s with accRedraw := s.accRedraw + s.frameInput.elapsed }

/-- A load of the delay timer: it "resets that timer's accumulated-time counter to zero"
(45_input_timers.md R159). -/
def State.loadDelay (s : State) (b : Byte) : State := { s with dt := b, accDelay := 0 }

/-- A load of the sound timer (45_input_timers.md R160). -/
def State.loadSound (s : State) (b : Byte) : State := { s with st := b, accSound := 0 }

/-! ## Small steps over the other registers -/

/-- `I <- w` (10_state.md R23). -/
def State.setI (s : State) (w : Word) : State := { s with i := w }

/-- The wait starts: `AWAIT <- true`, `TARGET <- x` (45_input_timers.md R158). -/
def State.awaitKey (s : State) (x : RegNum) : State := { s with awaiting := true, target := x }

/-- A further change of the state after a next state; a fault or a refusal stays. -/
def andThen (o : Outcome) (f : State → State) : Outcome :=
  match o with
  | .next s => .next (f s)
  | .fault r => .fault r
  | .refused r => .refused r

end Sys2Proof.Machine
end

