-- ==== Sys2Proof/Machine/Operands.lean ====
section
/-! DEFINITION. The operand forms: how an instruction's fields become values (spec/30_encoding.md R72)
and the one addressing mode of the machine (43_index_memory.md). -/

namespace Sys2Proof.Machine

/-- `zext_16(NNN)` (R72). -/
def addrOperand (nnn : Addr) : Word := nnn.setWidth 16

/-- `zext_16(V[x])` (43_index_memory.md R141). -/
def byteOperand (b : Byte) : Word := b.setWidth 16

/-- `EA(k) = (I + k) & 0xFFF` (43_index_memory.md; 20_memory.md R50). -/
def State.effAddr (s : State) (k : Nat) : Nat := maskAddr (s.i.toNat + k)

/-- The `n` bytes at `EA(0)`, `EA(1)`, ... -/
def State.loadAtIndex (s : State) (n : Nat) : List Byte := s.readBytes s.i.toNat n

/-- Stores bytes at `EA(0)`, `EA(1)`, ... -/
def State.storeAtIndex (s : State) (bs : List Byte) : State := s.writeBytes s.i.toNat bs

/-- `V[0]` to `V[x]`, in order (43_index_memory.md R144). -/
def State.regsUpTo (s : State) (x : RegNum) : List Byte :=
  (List.range (x.toNat + 1)).map (fun k => s.reg (BitVec.ofNat 4 k))

/-- The hundreds, tens and ones digits of a byte (43_index_memory.md R143). -/
def bcdDigits (b : Byte) : List Byte :=
  [BitVec.ofNat 8 (b.toNat / 100), BitVec.ofNat 8 (b.toNat / 10 % 10), BitVec.ofNat 8 (b.toNat % 10)]

/-- `FONT_BASE + 5 * V[x]` for a digit; for a value above 15 the free value of this frame
(43_index_memory.md R142; log 3). -/
def State.fontAddr (s : State) (b : Byte) : Word :=
  if b.toNat ≤ 15 then BitVec.ofNat 16 (5 * b.toNat) else Config.freeIndex s.frames

end Sys2Proof.Machine
end

