-- ==== Sys2Proof/Machine/Flags.lean ====
section
/-! DEFINITION. The results and the flag of the six flag-writing instructions (spec/10_state.md R21,
42_load_alu.md R131 to R135, 44_display.md R152). Sums and differences are taken exactly, then narrowed. -/

namespace Sys2Proof.Machine

/-- A flag value: 1 or 0 (10_state.md R21). -/
def flagByte (b : Bool) : Byte := if b then 1 else 0

/-- The sum modulo 256 (R131, R127). -/
def addByte (a b : Byte) : Byte := BitVec.ofNat 8 (a.toNat + b.toNat)

/-- The carry: the exact sum exceeds 255 (R131). -/
def carryFlag (a b : Byte) : Byte := flagByte (decide (255 < a.toNat + b.toNat))

/-- Minuend less subtrahend, modulo 256 (R132, R133). -/
def subByte (a b : Byte) : Byte := BitVec.ofInt 8 ((a.toNat : Int) - (b.toNat : Int))

/-- No borrow: minuend > subtrahend, unsigned and strict (R132, R133; log 17). -/
def noBorrowFlag (a b : Byte) : Byte := flagByte (decide (b.toNat < a.toNat))

/-- `a >> 1` (R134). -/
def shiftRight (a : Byte) : Byte := BitVec.ofNat 8 (a.toNat / 2)

/-- The bit a right shift drops: `a[0]` (R134). -/
def shiftedOutRight (a : Byte) : Byte := flagByte (a.getLsbD 0)

/-- `(a << 1) mod 256` (R135). -/
def shiftLeft (a : Byte) : Byte := BitVec.ofNat 8 (a.toNat * 2)

/-- The bit a left shift drops: `a[7]` (R135). -/
def shiftedOutLeft (a : Byte) : Byte := flagByte (a.getLsbD 7)

/-- DRW's flag: some pixel went from set to unset (44_display.md R152). -/
def collisionFlag (c : Canvas) : Byte := flagByte c.collided

end Sys2Proof.Machine
end

