-- ==== Sys2Proof/Machine/Control.lean ====
section
/-! DEFINITION. Control transfer (spec/41_control_flow.md) and the unrecognised word
(40_execution_cycle.md R98). The bounds check after each is `executeOne`'s (Machine/Frame.lean). -/

namespace Sys2Proof.Machine

/-- SYS (R118): consumed; the diagnostic if `SYS_DIAG`. The word is `0NNN` (log 10). -/
def execSys (nnn : Addr) (s : State) : Outcome :=
  .next (s.pulseDiagIf s.cfg.sysDiag (addrOperand nnn)).advance

/-- RET (R112; log 13). -/
def execRet (s : State) : Outcome := .next s.popAndReturn

/-- JP (R110). -/
def execJp (nnn : Addr) (s : State) : Outcome := .next (s.jumpTo (addrOperand nnn))

/-- CALL (R111; log 13). -/
def execCall (nnn : Addr) (s : State) : Outcome := .next (s.pushAndJump (addrOperand nnn))

/-- SE_IMM (R113). -/
def execSeImm (x : RegNum) (nn : Byte) (s : State) : Outcome :=
  .next (s.skipIf (decide (s.reg x = nn)))

/-- SNE_IMM (R114). -/
def execSneImm (x : RegNum) (nn : Byte) (s : State) : Outcome :=
  .next (s.skipIf (decide (s.reg x ≠ nn)))

/-- SE_REG (R115). -/
def execSeReg (x y : RegNum) (s : State) : Outcome :=
  .next (s.skipIf (decide (s.reg x = s.reg y)))

/-- SNE_REG (R116). -/
def execSneReg (x y : RegNum) (s : State) : Outcome :=
  .next (s.skipIf (decide (s.reg x ≠ s.reg y)))

/-- JP_V0 (R117): a 16-bit sum, not masked (log 14). -/
def execJpV0 (nnn : Addr) (s : State) : Outcome :=
  .next (s.jumpTo (byteOperand (s.reg 0) + addrOperand nnn))

/-- The unrecognised word (40_execution_cycle.md R98): the diagnostic, and the advance. -/
def execUnrecognised (w : Word) (s : State) : Outcome := .next ((s.pulseDiag w).advance)

end Sys2Proof.Machine
end

