-- ==== Sys2Proof/Machine/DisplayOps.lean ====
section
/-! DEFINITION. The display instructions (spec/44_display.md). -/

namespace Sys2Proof.Machine

/-- The canvas after DRW's loops: rows `EA(0)` to `EA(n-1)`, at the values of `V[x]`, `V[y]` read before
`VF` is written (R152). -/
def State.drawn (s : State) (x y : RegNum) (n : Nibble) : Canvas :=
  Canvas.plotRows { fb := s.fb, collided := false, toggled := false }
    (s.reg x).toNat (s.reg y).toNat (s.loadAtIndex n.toNat)

/-- CLS (R151; log 10, log 20). -/
def execCls (s : State) : Outcome := .next s.clearDisplay.advance

/-- DRW (R152). -/
def execDrw (x y : RegNum) (n : Nibble) (s : State) : Outcome :=
  .next (((s.showCanvas (s.drawn x y n)).setReg regF (collisionFlag (s.drawn x y n))).advance)

end Sys2Proof.Machine
end

