-- ==== Sys2Proof/Machine/IndexMemory.lean ====
section
/-! DEFINITION. The index register and memory transfers (spec/43_index_memory.md). No transfer changes
`I` (log 18). -/

namespace Sys2Proof.Machine

/-- LD_I (R140; log 10). -/
def execLdI (nnn : Addr) (s : State) : Outcome := .next ((s.setI (addrOperand nnn)).advance)

/-- ADD_I (R141): modulo 65536, no flag. -/
def execAddI (x : RegNum) (s : State) : Outcome :=
  .next ((s.setI (s.i + byteOperand (s.reg x))).advance)

/-- LD_F (R142): for `V[x] > 15` the value of `I` is free (log 3). -/
def execLdF (x : RegNum) (s : State) : Outcome := .next ((s.setI (s.fontAddr (s.reg x))).advance)

/-- LD_B (R143): hundreds, tens, ones at `EA(0)`, `EA(1)`, `EA(2)`. -/
def execLdB (x : RegNum) (s : State) : Outcome :=
  .next ((s.storeAtIndex (bcdDigits (s.reg x))).advance)

/-- ST_REGS (R144): `V[0]` to `V[x]` at `EA(0)` to `EA(x)`. -/
def execStRegs (x : RegNum) (s : State) : Outcome :=
  .next ((s.storeAtIndex (s.regsUpTo x)).advance)

/-- LD_REGS (R145): `EA(0)` to `EA(x)` into `V[0]` to `V[x]`. -/
def execLdRegs (x : RegNum) (s : State) : Outcome :=
  .next ((s.setRegsFrom 0 (s.loadAtIndex (x.toNat + 1))).advance)

end Sys2Proof.Machine
end

