-- ==== Sys2Proof/Machine/InputTimer.lean ====
section
/-! DEFINITION. The keypad and timer instructions (spec/45_input_timers.md). -/

namespace Sys2Proof.Machine

/-- SKP (R155). -/
def execSkp (x : RegNum) (s : State) : Outcome := .next (s.skipIf (s.keyDown (s.reg x)))

/-- SKNP (R156). -/
def execSknp (x : RegNum) (s : State) : Outcome := .next (s.skipIf (!s.keyDown (s.reg x)))

/-- LD_VX_DT (R157): the value after this frame's decay (40_execution_cycle.md R99). -/
def execLdVxDt (x : RegNum) (s : State) : Outcome := .next ((s.setReg x s.dt).advance)

/-- LD_VX_K (R158): the wait starts, and `PC` advances now. -/
def execLdVxK (x : RegNum) (s : State) : Outcome := .next ((s.awaitKey x).advance)

/-- LD_DT_VX (R159). -/
def execLdDtVx (x : RegNum) (s : State) : Outcome := .next ((s.loadDelay (s.reg x)).advance)

/-- LD_ST_VX (R160). -/
def execLdStVx (x : RegNum) (s : State) : Outcome := .next ((s.loadSound (s.reg x)).advance)

end Sys2Proof.Machine
end

