-- ==== Sys2Proof/Machine/LoadAlu.lean ====
section
/-! DEFINITION. Register loads and arithmetic (spec/42_load_alu.md). Every right-hand side reads the
registers from before the instruction. -/

namespace Sys2Proof.Machine

/-- LD_IMM (R125). -/
def execLdImm (x : RegNum) (nn : Byte) (s : State) : Outcome := .next ((s.setReg x nn).advance)

/-- LD_REG (R126). -/
def execLdReg (x y : RegNum) (s : State) : Outcome := .next ((s.setReg x (s.reg y)).advance)

/-- ADD_IMM (R127): wraps, no flag (log 16). -/
def execAddImm (x : RegNum) (nn : Byte) (s : State) : Outcome :=
  .next ((s.setReg x (addByte (s.reg x) nn)).advance)

/-- OR (R128). -/
def execOr (x y : RegNum) (s : State) : Outcome :=
  .next ((s.setReg x (s.reg x ||| s.reg y)).advance)

/-- AND (R129). -/
def execAnd (x y : RegNum) (s : State) : Outcome :=
  .next ((s.setReg x (s.reg x &&& s.reg y)).advance)

/-- XOR (R130). -/
def execXor (x y : RegNum) (s : State) : Outcome :=
  .next ((s.setReg x (s.reg x ^^^ s.reg y)).advance)

/-- ADD_REG (R131, R138). -/
def execAddReg (x y : RegNum) (s : State) : Outcome :=
  .next ((s.setResultFlag x (addByte (s.reg x) (s.reg y)) (carryFlag (s.reg x) (s.reg y))).advance)

/-- SUB: `V[x] - V[y]` (R132, R138). -/
def execSub (x y : RegNum) (s : State) : Outcome :=
  .next ((s.setResultFlag x (subByte (s.reg x) (s.reg y)) (noBorrowFlag (s.reg x) (s.reg y))).advance)

/-- SUBN: `V[y] - V[x]` (R133, R138). -/
def execSubn (x y : RegNum) (s : State) : Outcome :=
  .next ((s.setResultFlag x (subByte (s.reg y) (s.reg x)) (noBorrowFlag (s.reg y) (s.reg x))).advance)

/-- SHR: `V[x]` in place (R134, R138; log 18). -/
def execShr (x : RegNum) (s : State) : Outcome :=
  .next ((s.setResultFlag x (shiftRight (s.reg x)) (shiftedOutRight (s.reg x))).advance)

/-- SHL: `V[x]` in place (R135, R138; log 18). -/
def execShl (x : RegNum) (s : State) : Outcome :=
  .next ((s.setResultFlag x (shiftLeft (s.reg x)) (shiftedOutLeft (s.reg x))).advance)

/-- RND (R136): the random byte is an input of the frame (log 1). -/
def execRnd (x : RegNum) (nn : Byte) (s : State) : Outcome :=
  .next ((s.setReg x (s.frameInput.rnd &&& nn)).advance)

end Sys2Proof.Machine
end

