-- ==== Sys2Proof/Machine/Frame.lean ====
section
/-! DEFINITION. One instruction and one frame (spec/40_execution_cycle.md R90 to R97). -/

namespace Sys2Proof.Machine

/-- Decode and execute a word: the operation's own rule, or R98 for an unrecognised word. -/
def executeWord (w : Word) (s : State) : Outcome :=
  match decodeWord w with
  | .ok op => exec op s
  | .error _ => execUnrecognised w s

/-- `ExecuteOne` (R94): fetch, decode, execute, bounds check. -/
def executeOne (s : State) : Outcome :=
  andThen (executeWord s.fetchWord s) State.boundsCheck

/-- The instruction cadence fires in this frame (R93): the accumulated time reaches the interval. -/
def State.cadenceFires (s : State) : Bool :=
  decide (s.cfg.instrInterval ≤ s.accInstr + s.frameInput.elapsed)

/-- `InstructionCadence(dt)` (R93): at most one instruction a frame. -/
def instructionCadence (s : State) : Outcome :=
  if s.cadenceFires then executeOne { s with accInstr := 0 }
  else .next { s with accInstr := s.accInstr + s.frameInput.elapsed }

/-- The end of every frame of a machine that was not halted: the redraw cadence runs last (R90, R180),
and the frame's inputs are used up. -/
def State.finishFrame (s : State) : State := s.redrawCadence.endFrame

/-- A frame that starts in `AwaitingInput`: key delivery, timers, redraw, no instruction (R90, R92). -/
def State.waitingFrame (s : State) : State := s.clearPulses.deliverKey.timerDecay.finishFrame

/-- A frame of a halted machine: no state changes and no output is pulsed (R91; log 5). -/
def State.haltedFrame (s : State) : State := s.clearPulses.endFrame

/-- `Frame(dt, key, KeyDown, rnd)` (R90), on the inputs of the current frame (log 1, log 21). -/
def frame (s : State) : Outcome :=
  if s.status = .none then
    if s.awaiting then .next s.waitingFrame
    else andThen (instructionCadence s.clearPulses.timerDecay) State.finishFrame
  else .next s.haltedFrame

/-! ## Placing an instruction where the next frame fetches (log 6) -/

/-- The inputs of a frame in which the instruction cadence fires: the host's own next inputs with enough
time, or, when the list is used up, no key and a zero random byte. -/
def State.firingInputs (s : State) : List FrameInput :=
  match s.inputs with
  | inp :: rest => { inp with elapsed := max inp.elapsed (s.cfg.instrInterval - s.accInstr) } :: rest
  | [] => [{ elapsed := s.cfg.instrInterval - s.accInstr, key := none, keys := 0, rnd := 0 }]

/-- The word at `PC`, high byte first (20_memory.md R52). -/
def State.placeWord (s : State) (w : Word) : State :=
  (s.memWrite s.pc.toNat (w.extractLsb' 8 8)).memWrite (s.pc.toNat + 1) (w.extractLsb' 0 8)

/-- The program bound once the program holds the word at `PC` (10_state.md R34). -/
def State.boundWithWord (s : State) : BitVec 13 :=
  BitVec.ofNat 13 (max s.progEnd.toNat (min 4096 (s.pc.toNat + 2)))

/-- The state whose next frame fetches and runs the word: it stands at `PC` and inside the program, the
machine is running, and the frame's time fires the instruction cadence. -/
def State.readyToRun (s : State) (w : Word) : State :=
  { s.placeWord w with
      progEnd := s.boundWithWord, status := .none, awaiting := false, inputs := s.firingInputs }

end Sys2Proof.Machine
end

