-- ==== Sys2Proof/Machine/Load.lean ====
section
/-! DEFINITION. Reset is load (spec/70_reset_and_hazards.md R195, R196). -/

namespace Sys2Proof.Machine

/-- The state after the load of a program of at most 3584 bytes: every piece of state at its value of
10_state.md R36. The parameters stay, and the host's inputs and the frame count go on (log 6). -/
def State.loaded (s : State) (prog : List Byte) : State :=
  State.writeBytes
    { State.reset with
        cfg := s.cfg, inputs := s.inputs, frames := s.frames,
        progEnd := BitVec.ofNat 13 (0x200 + prog.length) }
    0x200 prog

/-- `Reset(prog, L)` (R195); a program of more than 3584 bytes is refused (R196; log 22). It may be
applied in any state, halted or not. -/
def load (s : State) (prog : List Byte) : Outcome :=
  if prog.length ≤ 3584 then .next (s.loaded prog) else .refused (.programTooLong prog.length)

end Sys2Proof.Machine
end

