-- ==== Sys2Proof/Machine/Step.lean ====
section
/-! DEFINITION. The step of the machine: one host frame. -/

namespace Sys2Proof.Machine

/-- One step is one call of `Frame` (spec/40_execution_cycle.md R90). -/
def step (s : State) : Host.Outcome State Fault Refusal := frame s

/-- The state in which the very next step fetches and runs the instruction of the opcode table's
numbering (log 6). -/
def State.withFetchWord (s : State) (nbits w : Nat) : State :=
  s.readyToRun (BitVec.ofNat 16 (w % 2 ^ nbits))

end Sys2Proof.Machine
end

