-- ==== Sys2Proof/Safety.lean ====
section
/-! DEFINITION. What claims are stated in: running and halted machines, the frame in which an
instruction runs, the end of a run and a safe run (spec/40_execution_cycle.md R100), the invariant of the machine, which registers an instruction may write, and the
machine at instruction granularity (spec/40_execution_cycle.md R101). -/

namespace Sys2Proof.Machine

/-- The machine has halted: "once set, the core must not execute further instructions"
(40_execution_cycle.md R91). "A fault; never a normal end" (R100): see `State.atEnd` and `State.safeFor`. -/
abbrev State.halted (s : State) : Prop := s.status ≠ .none

/-- The next frame executes an instruction (R90, R93): the machine runs, is not waiting, and the frame's
time brings the accumulator to the interval. -/
abbrev State.ready (s : State) : Prop :=
  s.status = .none ∧ s.awaiting = false ∧ s.cfg.instrInterval ≤ s.accInstr + s.frameInput.elapsed

/-- The next frame of a running machine executes nothing, for want of time (R93). -/
abbrev State.idle (s : State) : Prop :=
  s.status = .none ∧ s.awaiting = false ∧ s.accInstr + s.frameInput.elapsed < s.cfg.instrInterval

/-- The next frame starts in `AwaitingInput` (R90, R92). -/
abbrev State.waiting (s : State) : Prop := s.status = .none ∧ s.awaiting = true

/-- The state in which the frame's instruction executes: the pulses are down, the timers have counted,
the instruction accumulator is cleared (R90, R93). -/
def State.beforeInstruction (s : State) : State := { s.clearPulses.timerDecay with accInstr := 0 }

/-- `PC` is in `[0x200, PROG_END)` (10_state.md R22). -/
abbrev State.pcInProgram (s : State) : Prop :=
  0x200 ≤ s.pc.toNat ∧ s.pc.toNat < s.progEnd.toNat

/-! ## The end of a run (R100)

The machine has no halt instruction, and a step of a halted machine answers a next state (R91). So what
counts as an end is said here: a chosen `PC` of a machine that still runs. -/

/-- The run may end here: "a model should define the end of a run as a chosen `PC`", and "should treat
`STATUS != None` as a fault that is never final" (R100). A machine that still waits for a key is not at
an end either (60_exceptions.md R189; log 28). -/
abbrev State.atEnd (s : State) (stop : Word) : Prop :=
  s.status = .none ∧ s.awaiting = false ∧ s.pc = stop

/-- The run of so many frames ends at the chosen `PC` (R100). -/
def State.endsAt (s : State) (stop : Word) (n : Nat) : Prop :=
  ∃ t : State, core.run n s = .next t ∧ t.atEnd stop

/-- A safe run: no state of its frames, the first and the last included, is halted (R100). -/
def State.safeFor (s : State) (n : Nat) : Prop :=
  ∀ k ≤ n, ∃ t : State, core.run k s = .next t ∧ ¬ t.halted

/-- "a jump to itself (`1NNN` at address `NNN`), which repeats forever and is the conventional way a
program idles" (R100). -/
def State.selfJump (s : State) : Prop :=
  ∃ nnn : Addr, decodeWord s.fetchWord = .ok (.jp nnn) ∧ nnn.toNat = s.pc.toNat

/-- The invariant of the machine: what holds between frames, whatever the program and the host do. -/
structure State.Inv (s : State) : Prop where
  /-- The intervals are greater than 0 (00_scope.md R5). -/
  params : s.cfg.wf
  /-- Memory is in canonical form (the model's own). -/
  memory : Memory.wf s.cfg.font s.mem
  /-- `0x200 <= PROG_END <= 0x1000` (10_state.md R34). -/
  bound : 0x200 ≤ s.progEnd.toNat ∧ s.progEnd.toNat ≤ 0x1000
  /-- The counter of a running machine is inside the program, or still at the reset vector (R22). -/
  counter : s.status = .none → 0x200 ≤ s.pc.toNat ∧ (s.pc.toNat < s.progEnd.toNat ∨ s.pc.toNat = 0x200)
  /-- "the largest value any rule can give it is 0x10FE" (R22). -/
  ceiling : s.pc.toNat ≤ 0x10FE
  /-- Every entry in use is the address of a CALL in the program's range (R25). -/
  entries : ∀ k : Fin 16, k.val < s.sp.val → 0x200 ≤ s.stack[k].toNat ∧ s.stack[k].toNat < 0x1000
  /-- `StackOverflow` only with a full stack (60_exceptions.md R165). -/
  overflow : s.status = .stackOverflow → s.sp.val = 16
  /-- `StackUnderflow` only with an empty stack (R165). -/
  underflow : s.status = .stackUnderflow → s.sp.val = 0
  /-- `OutOfBoundsMemoryAccess` only with the counter outside the program (R165). -/
  outside : s.status = .outOfBounds → ¬ s.pcInProgram
  /-- "code 4, `ArithmeticOverflow` ... is never set by this hardware" (10_state.md R28). -/
  reserved : s.status ≠ .arithmeticOverflow
  /-- A machine that waits has not met a stack fault: the frame that starts the wait can only leave the
  program (R185). -/
  waitHalt : s.awaiting = true → s.status = .none ∨ s.status = .outOfBounds
  /-- No cadence is overdue between frames (R93, R177, R178). -/
  accumulators : s.accInstr < s.cfg.instrInterval ∧ s.accDelay < s.cfg.timerPeriod ∧
    s.accSound < s.cfg.timerPeriod
  /-- A redraw that is due has nothing to show (R180). -/
  redraw : s.cfg.redrawInterval ≤ s.accRedraw → s.dirty = false

/-- A pixel that a sprite bit 1 of DRW falls on (44_display.md R150, R152). -/
def State.spriteHits (s : State) (x y : RegNum) (n : Nibble) (px py : Nat) : Prop :=
  ∃ row < n.toNat, ∃ col < 8,
    ((s.reg x).toNat + col) % 64 = px ∧ ((s.reg y).toNat + row) % 32 = py ∧
    (s.memRead (s.effAddr row)).getLsbD (7 - col) = true

/-! ## The machine at instruction granularity (R101) -/

/-- The two states differ at most in what time and the host's calls change: the accumulators, `DIRTY`,
the pulses, the inputs to come and the frame count. -/
def State.SameButTime (s t : State) : Prop :=
  t = { s with
          accInstr := t.accInstr, accDelay := t.accDelay, accSound := t.accSound,
          accRedraw := t.accRedraw, dirty := t.dirty, inputs := t.inputs, frames := t.frames,
          diag := t.diag, render := t.render }

/-- What may happen between two instructions (R101): time passes, a timer counts down by one, a key is
delivered to a waiting machine. That `time` leaves `DIRTY` and the pulses free, for any change, is the
model's choice (log 27). -/
inductive Between : State → State → Prop
  | time (s t : State) (h : s.SameButTime t) : Between s t
  | delayTick (s : State) (h : s.status = .none) : Between s { s with dt := decrement s.dt }
  | soundTick (s : State) (h : s.status = .none) : Between s { s with st := decrement s.st }
  | key (s : State) (k : Byte) (h : s.waiting) (hk : k.toNat ≤ 15) :
      Between s { s.setReg s.target k with awaiting := false }

/-- A run of the machine at instruction granularity with so many executions of `ExecuteOne` (R101). -/
inductive Interleaving : Nat → State → State → Prop
  | done (s : State) : Interleaving 0 s s
  | between {n : Nat} {s t u : State} (h : Interleaving n s t) (hb : Between t u) :
      Interleaving n s u
  | execute {n : Nat} {s t u : State} (h : Interleaving n s t) (hs : t.status = .none)
      (ha : t.awaiting = false) (he : executeOne t = .next u) : Interleaving (n + 1) s u

end Sys2Proof.Machine

namespace Sys2Proof

/-- The destination registers of an instruction, by its rule (spec files 42 to 45). The flag written
beside a result is not a destination: see `writesFlag`. -/
def Instr.writesReg (i : Instr) (r : RegNum) : Bool :=
  match i with
  | .ldImm x _ | .addImm x _ | .rnd x _ => r == x
  | .ldReg x _ | .orReg x _ | .andReg x _ | .xorReg x _ => r == x
  | .addReg x _ | .sub x _ | .subn x _ | .shr x | .shl x => r == x
  | .ldVxDt x => r == x
  | .ldRegs x => decide (r.toNat ≤ x.toNat)
  | .sys _ | .cls | .ret | .jp _ | .call _ | .jpV0 _ => false
  | .seImm _ _ | .sneImm _ _ | .seReg _ _ | .sneReg _ _ | .skp _ | .sknp _ => false
  | .ldI _ | .addI _ | .ldF _ | .ldB _ | .stRegs _ => false
  | .drw _ _ _ | .ldVxK _ | .ldDtVx _ | .ldStVx _ => false

/-- The six instructions that write the flag to `VF` as a side effect (10_state.md R21). -/
def Instr.writesFlag : Instr → Bool
  | .addReg _ _ | .sub _ _ | .subn _ _ | .shr _ | .shl _ | .drw _ _ _ => true
  | .sys _ | .cls | .ret | .jp _ | .call _ | .jpV0 _ => false
  | .seImm _ _ | .sneImm _ _ | .seReg _ _ | .sneReg _ _ | .skp _ | .sknp _ => false
  | .ldImm _ _ | .addImm _ _ | .rnd _ _ | .ldReg _ _ | .orReg _ _ | .andReg _ _ | .xorReg _ _ => false
  | .ldI _ | .addI _ | .ldF _ | .ldB _ | .stRegs _ | .ldRegs _ => false
  | .ldVxDt _ | .ldVxK _ | .ldDtVx _ | .ldStVx _ => false

/-- How many bytes an instruction stores at `EA(0)`, `EA(1)`, ... (20_memory.md R55). -/
def Instr.storedBytes : Instr → Nat
  | .ldB _ => 3
  | .stRegs x => x.toNat + 1
  | .sys _ | .cls | .ret | .jp _ | .call _ | .jpV0 _ => 0
  | .seImm _ _ | .sneImm _ _ | .seReg _ _ | .sneReg _ _ | .skp _ | .sknp _ => 0
  | .ldImm _ _ | .addImm _ _ | .rnd _ _ | .ldReg _ _ | .orReg _ _ | .andReg _ _ | .xorReg _ _ => 0
  | .addReg _ _ | .sub _ _ | .subn _ _ | .shr _ | .shl _ | .drw _ _ _ => 0
  | .ldI _ | .addI _ | .ldF _ | .ldRegs _ => 0
  | .ldVxDt _ | .ldVxK _ | .ldDtVx _ | .ldStVx _ => 0

/-- The bits of the word that an instruction uses: all but those the decoder ignores
(30_encoding.md R81). -/
def Instr.usedBits : Instr → Word
  | .cls | .ret => 0xF0FF
  | .seReg _ _ | .sneReg _ _ => 0xFFF0
  | .shr _ | .shl _ => 0xFF0F
  | .sys _ | .jp _ | .call _ | .jpV0 _ | .seImm _ _ | .sneImm _ _ | .skp _ | .sknp _ => 0xFFFF
  | .ldImm _ _ | .addImm _ _ | .rnd _ _ | .ldReg _ _ | .orReg _ _ | .andReg _ _ | .xorReg _ _ => 0xFFFF
  | .addReg _ _ | .sub _ _ | .subn _ _ | .drw _ _ _ => 0xFFFF
  | .ldI _ | .addI _ | .ldF _ | .ldB _ | .stRegs _ | .ldRegs _ => 0xFFFF
  | .ldVxDt _ | .ldVxK _ | .ldDtVx _ | .ldStVx _ => 0xFFFF

end Sys2Proof
end

