-- ==== Sys2Proof/Certificates/Slice0/Obligations.lean ====
section
/-! DEFINITION. The statements for the provers. Each docstring names the rule of the spec it formalises,
or says whose choice it rests on. `s` is any state, reachable or not, unless a hypothesis says more. -/

open Sys2Proof Sys2Proof.Machine

/-! ## Encoding -/

/-- Decoding the bytes of an encoded well-formed instruction gives it back, with the bytes after it
(30_encoding.md, sections 1, 2 and 5; the opcode values are the spec's, log 9). -/
def Obligations.DecodeOfEncodedInstruction : Prop :=
  ∀ (i : Instr) (rest : List Byte), i.wf = true →
    decodeBytes (encodeBytes i ++ rest) = .ok (i, rest)

/-- A word that decodes to an instruction decodes to a well-formed one, whose canonical word is the word
with its ignored bits cleared (30_encoding.md section 3, R81, which follows the spec's decisions D19 to
D21; log 11). -/
def Obligations.CanonicalWordOfDecodedWord : Prop :=
  ∀ (w : Word) (i : Instr), decodeWord w = .ok i → i.wf = true ∧ encode i = w &&& i.usedBits

/-- The words the decoder rejects are exactly the unrecognised words (30_encoding.md section 3, R82,
marked there as derived). -/
def Obligations.RejectedWordsAreTheUnrecognisedWords : Prop :=
  ∀ w : Word, (∃ e, decodeWord w = .error e) ↔
    (w.extractLsb' 12 4 = 0x8#4 ∧
      w.extractLsb' 0 4 ∈ [0x8#4, 0x9#4, 0xA#4, 0xB#4, 0xC#4, 0xD#4, 0xF#4]) ∨
    (w.extractLsb' 12 4 = 0xE#4 ∧ w.extractLsb' 0 8 ∉ [0x9E#8, 0xA1#8]) ∨
    (w.extractLsb' 12 4 = 0xF#4 ∧
      w.extractLsb' 0 8 ∉
        [0x07#8, 0x0A#8, 0x15#8, 0x18#8, 0x1E#8, 0x29#8, 0x33#8, 0x55#8, 0x65#8])

/-- The decoder of R85 and the opcode table's masks and matches (R86, marked there as derived) select the
same operation for every word, and no word hits two rows of the table other than SYS's. -/
def Obligations.DecoderAgreesWithOpcodeTable : Prop :=
  (∀ w : Word,
    (match decodeWord w with
      | .ok i => some i.mnemonic
      | .error _ => none) = (tableRow w).map (·.mnemonic)) ∧
  ∀ (w : Word) (r₁ r₂ : OpRow), r₁ ∈ opcodeRows → r₂ ∈ opcodeRows →
    r₁.hits w = true → r₂.hits w = true → r₁ = r₂

/-- Words written out from the encoding tables decode to their instructions (95_test_vectors.md T-DEC;
the opcode values are the spec's, log 9). -/
def Obligations.SampleWordsDecode : Prop :=
  decodeBytes [0xD1, 0x25] = .ok (.drw 1 2 5, []) ∧
  decodeBytes [0x8A, 0xF0] = .ok (.ldReg 10 15, []) ∧
  decodeBytes [0x00, 0xE0] = .ok (.cls, []) ∧
  decodeBytes [0x00, 0x00] = .ok (.sys 0, []) ∧
  decodeBytes [0x12, 0x34] = .ok (.jp 0x234, []) ∧
  decodeBytes [0xF1, 0x65] = .ok (.ldRegs 1, []) ∧
  decodeBytes [0x81, 0x28] = .error (.unrecognised8 0x8128)

/-! ## Fetch, frames and reset -/

/-- Fetch is big-endian: bits 15 to 8 are the byte at `PC`, bits 7 to 0 the byte at `PC + 1`, both
addresses masked (20_memory.md R52; the mask of the second is the spec's decision D13, log 15). -/
def Obligations.FetchTakesHighByteFirst : Prop :=
  ∀ s : State,
    s.fetchWord.extractLsb' 8 8 = s.memRead (s.pc.toNat % 4096) ∧
    s.fetchWord.extractLsb' 0 8 = s.memRead ((s.pc.toNat + 1) % 4096)

/-- A frame of a running machine whose instruction cadence fires runs the instruction that the word at
`PC` decodes to, after the timers and before the bounds check and the redraw cadence
(40_execution_cycle.md R90, R93, R94; the order is in part the spec's decision D5, log 21). -/
def Obligations.StepRunsDecodedInstruction : Prop :=
  ∀ (s : State) (i : Instr), s.ready → decodeWord s.fetchWord = .ok i →
    step s = andThen (exec i s.beforeInstruction) (fun t => t.boundsCheck.finishFrame)

/-- A frame that meets an unrecognised word pulses the diagnostic with it and advances `PC` by 2, and
nothing else changes before the bounds check and the redraw cadence (40_execution_cycle.md R98; the
pulse's content is the spec's decision D38). -/
def Obligations.UnrecognisedWordIsSkipped : Prop :=
  ∀ (s : State) (e : Reject), s.ready → decodeWord s.fetchWord = .error e →
    step s = .next
      ({ s.beforeInstruction with
          diag := some s.fetchWord, pc := s.pc + 2 }).boundsCheck.finishFrame

/-- `ExecuteOne` ends with the bounds check: a machine that still runs with its new counter outside
`[0x200, PROG_END)` halts with `OutOfBoundsMemoryAccess`, and nothing else changes
(40_execution_cycle.md R97). -/
def Obligations.BoundsCheckAfterEveryWord : Prop :=
  ∀ s : State, ∃ u, executeWord s.fetchWord s = .next u ∧
    (u.status = .none ∧ ¬ u.pcInProgram → executeOne s = .next { u with status := .outOfBounds }) ∧
    (u.status ≠ .none ∨ u.pcInProgram → executeOne s = .next u)

/-- Raising a condition sets `STATUS` if it is `None`, and does nothing if it is set; it changes no other
state and transfers no control (60_exceptions.md R166). -/
def Obligations.RaiseSetsStatusOnce : Prop :=
  ∀ (e : Status) (s : State),
    (s.status = .none → s.raise e = { s with status := e }) ∧ (s.status ≠ .none → s.raise e = s)

/-- A frame of a halted machine changes no state and pulses no output; only the model's own inputs and
frame count go on (40_execution_cycle.md R91, which follows the spec's decision D8; log 5). So a run from
it keeps its halt condition and its `PC` and is at no end, whatever `PC` is chosen: `STATUS != None` is "a
fault that is never final" (R100, marked there as derived). -/
def Obligations.HaltedFrameChangesNothing : Prop :=
  ∀ s : State, s.halted →
    (∃ t, step s = .next t ∧ t.diag = none ∧ t.render = false ∧
      t = { s with inputs := t.inputs, frames := t.frames, diag := t.diag, render := t.render }) ∧
    ∀ (n : Nat) (t : State), core.run n s = .next t →
      t.status = s.status ∧ t.pc = s.pc ∧ ∀ stop, ¬ t.atEnd stop

/-- A waiting frame executes nothing: a key 0 to 15 goes to `V[TARGET]` and ends the wait, anything else
leaves the registers and the wait as they are; no diagnostic pulses; `PC` and all state that no timer or
redraw owns stay (40_execution_cycle.md R92; the place of key delivery is the spec's decision D28,
log 21). That `acc_instr` stays is R93, by the spec's decision D6 (log 21). -/
def Obligations.WaitingFrameDeliversKey : Prop :=
  ∀ s : State, s.waiting → ∃ t, step s = .next t ∧
    (∀ k, s.frameInput.key = some k → k.toNat ≤ 15 →
      t.awaiting = false ∧ t.reg s.target = k ∧ ∀ r, r ≠ s.target → t.reg r = s.reg r) ∧
    (s.frameInput.key = none → t.awaiting = true ∧ ∀ r, t.reg r = s.reg r) ∧
    (∀ k, s.frameInput.key = some k → 15 < k.toNat → t.awaiting = true ∧ ∀ r, t.reg r = s.reg r) ∧
    (∀ a, t.memRead a = s.memRead a) ∧ t.diag = none ∧
    t = { s with
            v := t.v, awaiting := t.awaiting, dt := t.dt, st := t.st, accDelay := t.accDelay,
            accSound := t.accSound, accRedraw := t.accRedraw, dirty := t.dirty,
            inputs := t.inputs, frames := t.frames, diag := t.diag, render := t.render }

/-- A frame whose time does not reach the interval executes nothing and accumulates its time
(40_execution_cycle.md R93; the comparison is the spec's decision D4, log 21). -/
def Obligations.IdleFrameOnlyAccumulates : Prop :=
  ∀ s : State, s.idle → ∃ t, step s = .next t ∧
    t.accInstr = s.accInstr + s.frameInput.elapsed ∧ t.diag = none ∧
    t = { s with
            accInstr := t.accInstr, dt := t.dt, st := t.st, accDelay := t.accDelay,
            accSound := t.accSound, accRedraw := t.accRedraw, dirty := t.dirty,
            inputs := t.inputs, frames := t.frames, diag := t.diag, render := t.render }

/-- The two countdowns, in a frame that executes nothing and in the state an instruction executes in
(60_exceptions.md R177, R178; the comparison is the spec's decision D4, log 21). -/
def Obligations.TimersCountDownInEveryFrame : Prop :=
  ∀ s t : State,
    (s.waiting ∨ s.idle) ∧ step s = .next t ∨ s.ready ∧ t = s.beforeInstruction →
    (s.cfg.timerPeriod ≤ s.accDelay + s.frameInput.elapsed →
      t.dt.toNat = s.dt.toNat - 1 ∧ t.accDelay = 0) ∧
    (s.accDelay + s.frameInput.elapsed < s.cfg.timerPeriod →
      t.dt = s.dt ∧ t.accDelay = s.accDelay + s.frameInput.elapsed) ∧
    (s.cfg.timerPeriod ≤ s.accSound + s.frameInput.elapsed →
      t.st.toNat = s.st.toNat - 1 ∧ t.accSound = 0) ∧
    (s.accSound + s.frameInput.elapsed < s.cfg.timerPeriod →
      t.st = s.st ∧ t.accSound = s.accSound + s.frameInput.elapsed)

/-- The redraw cadence of every frame of a running machine: it renders only when the interval has passed,
and then clears `DIRTY` and its accumulator; otherwise the accumulator takes the frame's time, and a due
redraw had nothing to show. It renders exactly when the interval has passed and the display is dirty: in
a frame that executes nothing, `DIRTY` as the frame found it; in a frame that executes a word, `DIRTY` as
the word left it, so a clean display renders only after CLS or DRW (60_exceptions.md R180; the spec's
decisions D4, D5, D7, D26, logs 20 and 21). -/
def Obligations.RedrawCadenceOfEveryFrame : Prop :=
  ∀ s t : State, s.status = .none → step s = .next t →
    (t.render = true →
      s.cfg.redrawInterval ≤ s.accRedraw + s.frameInput.elapsed ∧ t.dirty = false ∧
        t.accRedraw = 0) ∧
    (t.render = false →
      t.accRedraw = s.accRedraw + s.frameInput.elapsed ∧
        (s.cfg.redrawInterval ≤ s.accRedraw + s.frameInput.elapsed → t.dirty = false)) ∧
    (s.waiting ∨ s.idle →
      (t.render = true ↔
        s.cfg.redrawInterval ≤ s.accRedraw + s.frameInput.elapsed ∧ s.dirty = true)) ∧
    (s.ready → ∀ u, executeWord s.fetchWord s.beforeInstruction = .next u →
      (t.render = true ↔
        s.cfg.redrawInterval ≤ s.accRedraw + s.frameInput.elapsed ∧ u.dirty = true)) ∧
    (s.ready → t.render = true → s.dirty = true ∨ decodeWord s.fetchWord = .ok .cls ∨
      ∃ x y n, decodeWord s.fetchWord = .ok (.drw x y n))

/-- Over waiting frames whose times add up to exactly one period, the delay timer counts down exactly
once: "with repeated frame calls whose cumulative delta time equals exactly 1/60 second, the delay timer
decreases by exactly 1, never below 0" (60_exceptions.md R177, 95_test_vectors.md S13; the comparison is
the spec's decision D4, log 21). That each frame uses up one entry of the list of inputs, so that `later`
is left, is the model's choice (log 1). -/
def Obligations.OnePeriodIsOneDecrement : Prop :=
  ∀ (s : State) (now later : List FrameInput), s.cfg.wf → s.waiting → s.accDelay = 0 →
    s.inputs = now ++ later → (∀ inp ∈ now, ∀ k, inp.key = some k → 15 < k.toNat) →
    (now.map (·.elapsed)).sum = s.cfg.timerPeriod →
    ∃ t, core.run now.length s = .next t ∧ t.dt.toNat = s.dt.toNat - 1 ∧ t.accDelay = 0 ∧
      t.inputs = later

/-- Every step answers a next state: every word has a defined effect, no access faults, a halted machine
stays (30_encoding.md R82, 40_execution_cycle.md R91). A run that ends at a chosen `PC` met no halt in any
of its frames, and a program that reaches a jump to itself stands at the end it chose there, after any
number of frames (R100, marked there as derived; that a waiting machine is at no end is the model's
choice, log 28). -/
def Obligations.EveryStepAnswersNext : Prop :=
  (∀ s : State, ∃ t, step s = .next t) ∧
  (∀ (s : State) (stop : Word) (n : Nat), s.endsAt stop n → s.safeFor n) ∧
  (∀ (s : State) (n : Nat), s.status = .none → s.awaiting = false → s.pcInProgram → s.selfJump →
    s.endsAt s.pc n)

/-- Every step keeps the machine's invariant, from every state that meets it (10_state.md R22, R24, R25,
R28, R34; 60_exceptions.md R165, R176 to R180, R185). -/
def Obligations.StepKeepsInvariant : Prop :=
  ∀ s t : State, s.Inv → step s = .next t → t.Inv

/-- The invariant holds after reset (10_state.md R36; for the parameters of log 2). -/
def Obligations.ResetMeetsInvariant : Prop := State.reset.Inv

/-- A load of at most 3584 bytes copies the program to 0x200, sets the bound, leaves the font and zeros
elsewhere, resets every other piece of state, and meets the invariant, whatever the state before
(70_reset_and_hazards.md R195; reset values by the spec's decision D15, log 7; that the parameters and
the host's inputs stay is the model's choice, log 6). A longer program is refused (R196; the spec's
decision D32, log 22). -/
def Obligations.LoadSetsWholeStateOrRefuses : Prop :=
  ∀ (s : State) (prog : List Byte),
    (prog.length ≤ 3584 → ∃ t, load s prog = .next t ∧
      (∀ (k : Nat) (h : k < prog.length), t.memRead (0x200 + k) = prog[k]) ∧
      (∀ (a : Nat) (h : a < 80), t.memRead a = s.cfg.font[a]) ∧
      (∀ a, 80 ≤ a → a < 4096 → (a < 0x200 ∨ 0x200 + prog.length ≤ a) → t.memRead a = 0) ∧
      t.progEnd.toNat = 0x200 + prog.length ∧
      (s.cfg.wf → t.Inv) ∧
      t = { State.reset with
              cfg := s.cfg, inputs := s.inputs, frames := s.frames, mem := t.mem,
              progEnd := t.progEnd }) ∧
    (3584 < prog.length → load s prog = .refused (.programTooLong prog.length))

/-- What reset leaves, for the empty program: the values the source states (marked S in 10_state.md R36).
-/
def Obligations.ResetLeavesStatedValues : Prop :=
  State.reset.pc = 0x200 ∧ State.reset.sp = 0 ∧ State.reset.dt = 0 ∧ State.reset.st = 0 ∧
  State.reset.status = .none ∧ State.reset.awaiting = false ∧
  State.reset.accInstr = 0 ∧ State.reset.accDelay = 0 ∧ State.reset.accSound = 0 ∧
  State.reset.accRedraw = 0 ∧ State.reset.progEnd.toNat = 0x200 ∧
  ∀ (a : Nat) (h : a < 80), State.reset.memRead a = State.reset.cfg.font[a]

/-- Every frame is an interleaving of the machine at instruction granularity, with at most one execution
of `ExecuteOne` (40_execution_cycle.md R101, marked there as derived). That what passes as time leaves
`DIRTY` and the pulses free, beside the accumulators, is the model's choice (`Between.time`, log 27). -/
def Obligations.FrameIsInterleaving : Prop :=
  ∀ s t : State, step s = .next t → ∃ n, n ≤ 1 ∧ Interleaving n s t

/-! ## Whole-machine rules -/

/-- Only SKP, SKNP and RND read the host's inputs: any other instruction does the same whatever the inputs
are (40_execution_cycle.md R99; 10_state.md R38). -/
def Obligations.OnlyKeySkipsAndRandomReadInputs : Prop :=
  ∀ (i : Instr) (s t : State) (l : List FrameInput),
    (∀ x, i ≠ .skp x) → (∀ x, i ≠ .sknp x) → (∀ x nn, i ≠ .rnd x nn) →
    exec i s = .next t → exec i { s with inputs := l } = .next { t with inputs := l }

/-- The wait starts only by LD_VX_K and ends only by a delivered key 0 to 15 (60_exceptions.md R185). -/
def Obligations.WaitStartsAndEndsOnlyAsNamed : Prop :=
  ∀ s t : State, step s = .next t →
    (s.awaiting = false → t.awaiting = true →
      s.ready ∧ ∃ x, decodeWord s.fetchWord = .ok (.ldVxK x) ∧ t.target = x) ∧
    (s.awaiting = true → t.awaiting = false →
      s.status = .none ∧ ∃ k, s.frameInput.key = some k ∧ k.toNat ≤ 15 ∧ t.reg s.target = k) ∧
    (s.awaiting = true → t.pc = s.pc)

/-- A running machine halts only by the three named conditions (60_exceptions.md R165). -/
def Obligations.HaltsOnlyAsNamed : Prop :=
  ∀ s t : State, s.status = .none → step s = .next t →
    (t.status = .stackOverflow →
      s.ready ∧ s.sp.val = 16 ∧ t.pc = s.pc ∧ ∃ nnn, decodeWord s.fetchWord = .ok (.call nnn)) ∧
    (t.status = .stackUnderflow →
      s.ready ∧ s.sp.val = 0 ∧ t.pc = s.pc ∧ decodeWord s.fetchWord = .ok .ret) ∧
    (t.status = .outOfBounds → s.ready ∧ ¬ t.pcInProgram) ∧
    t.status ≠ .arithmeticOverflow

/-- `DIRTY` rises only in a frame that executes DRW or CLS, and falls only in a frame that renders
(10_state.md R32; the spec's decisions D25, D26, log 20). -/
def Obligations.DirtyRisesByDrawingFallsByRendering : Prop :=
  ∀ s t : State, step s = .next t →
    (s.dirty = false → t.dirty = true →
      s.ready ∧ (decodeWord s.fetchWord = .ok .cls ∨
        ∃ x y n, decodeWord s.fetchWord = .ok (.drw x y n))) ∧
    (s.dirty = true → t.dirty = false → t.render = true)

/-- Every register other than an instruction's destinations, and `VF` when the instruction writes the
flag, is unchanged (10_state.md R20, R21). -/
def Obligations.OnlyDestinationsAndFlagChange : Prop :=
  ∀ (i : Instr) (s t : State) (r : RegNum), exec i s = .next t → i.writesReg r = false →
    (r = regF → i.writesFlag = false) → t.reg r = s.reg r

/-- "In each the flag value is 0 or 1": after a flag-writing instruction `VF` holds 0 or 1, also when it
is the destination (10_state.md R21; the spec's decision D10, log 12). -/
def Obligations.FlagIsZeroOrOne : Prop :=
  ∀ (i : Instr) (s t : State), i.writesFlag = true → exec i s = .next t →
    t.reg regF = 0 ∨ t.reg regF = 1

/-- Every byte of memory is unchanged except the bytes LD_B and ST_REGS store at `EA(0)`, `EA(1)`, ...
(20_memory.md R55, R50). -/
def Obligations.OnlyStoredBytesChange : Prop :=
  ∀ (i : Instr) (s t : State) (a : Nat), exec i s = .next t →
    (∀ k < i.storedBytes, a % 4096 ≠ s.effAddr k) → t.memRead a = s.memRead a

/-- `SP` and the stack are written only by CALL, at entry `SP`, and by RET, which leaves every entry
(10_state.md R24, R25). -/
def Obligations.OnlyCallAndRetChangeStack : Prop :=
  ∀ (i : Instr) (s t : State), exec i s = .next t →
    ((∀ nnn, i ≠ .call nnn) → t.stack = s.stack) ∧
    ((∀ nnn, i ≠ .call nnn) → i ≠ .ret → t.sp = s.sp) ∧
    (∀ nnn, i = .call nnn → ∀ k : Fin 16, k.val ≠ s.sp.val → t.stack[k] = s.stack[k])

/-- `I` is written only by LD_I, ADD_I and LD_F (10_state.md R23). -/
def Obligations.OnlyIndexInstructionsChangeIndex : Prop :=
  ∀ (i : Instr) (s t : State), exec i s = .next t →
    (∀ nnn, i ≠ .ldI nnn) → (∀ x, i ≠ .addI x) → (∀ x, i ≠ .ldF x) → t.i = s.i

/-- No instruction but LD_DT_VX writes `DT` or `acc_delay`, none but LD_ST_VX writes `ST` or `acc_sound`,
and none writes the other two accumulators (10_state.md R26, R27, R30). -/
def Obligations.OnlyTimerLoadsChangeTimers : Prop :=
  ∀ (i : Instr) (s t : State), exec i s = .next t →
    ((∀ x, i ≠ .ldDtVx x) → t.dt = s.dt ∧ t.accDelay = s.accDelay) ∧
    ((∀ x, i ≠ .ldStVx x) → t.st = s.st ∧ t.accSound = s.accSound) ∧
    t.accInstr = s.accInstr ∧ t.accRedraw = s.accRedraw

/-- The display and `DIRTY` are written only by DRW and CLS, and by them `DIRTY` is only ever set
(10_state.md R31, R32; 20_memory.md R58). -/
def Obligations.OnlyDrawAndClearChangeDisplay : Prop :=
  ∀ (i : Instr) (s t : State), exec i s = .next t →
    ((∀ x y n, i ≠ .drw x y n) → i ≠ .cls → t.fb = s.fb ∧ t.dirty = s.dirty) ∧
    (s.dirty = true → t.dirty = true)

/-- The rest of the frame of every instruction: the status but for a stack fault of CALL and RET, the wait
but for LD_VX_K, the diagnostic but for SYS; and no instruction changes the program bound, the parameters,
the inputs, the frame count or the render pulse (10_state.md R28, R29, R34, R35). -/
def Obligations.ControlStateChangesOnlyAsNamed : Prop :=
  ∀ (i : Instr) (s t : State), exec i s = .next t →
    ((∀ nnn, i ≠ .call nnn) → i ≠ .ret → t.status = s.status) ∧
    (s.status ≠ .none → t.status = s.status) ∧
    ((∀ x, i ≠ .ldVxK x) → t.awaiting = s.awaiting ∧ t.target = s.target) ∧
    ((∀ nnn, i ≠ .sys nnn) → t.diag = s.diag) ∧
    t.progEnd = s.progEnd ∧ t.cfg = s.cfg ∧ t.inputs = s.inputs ∧ t.frames = s.frames ∧
    t.render = s.render

/-! ## Results: control transfer (41_control_flow.md)

Each says that the instruction completes, what it writes, and that nothing else changes. -/

/-- JP sets `PC` to its operand, for every operand; a target outside the program then halts the machine
with `PC` at it (R110, with the bounds check of 40_execution_cycle.md R97). -/
def Obligations.JumpSetsCounterToOperand : Prop :=
  ∀ (nnn : Addr) (s : State), ∃ t, exec (.jp nnn) s = .next t ∧ t.pc.toNat = nnn.toNat ∧
    t = { s with pc := t.pc } ∧
    (s.status = .none → nnn.toNat < 0x200 ∨ s.progEnd.toNat ≤ nnn.toNat →
      t.boundsCheck = { t with status := .outOfBounds })

/-- CALL with room pushes its own address and jumps; with a full stack it changes nothing but the status
(R111; that the pushed address is CALL's own is kept by the spec's decision D11, log 13). -/
def Obligations.CallPushesItsAddressOrOverflows : Prop :=
  ∀ (nnn : Addr) (s : State),
    (∀ k : Fin 16, s.sp.val = k.val → ∃ t, exec (.call nnn) s = .next t ∧
      t.stack[k] = s.pc ∧ (∀ j : Fin 16, j ≠ k → t.stack[j] = s.stack[j]) ∧
      t.sp.val = k.val + 1 ∧ t.pc.toNat = nnn.toNat ∧
      t = { s with stack := t.stack, sp := t.sp, pc := t.pc }) ∧
    (s.sp.val = 16 → ∃ t, exec (.call nnn) s = .next t ∧
      (s.status = .none → t.status = .stackOverflow) ∧ (s.status ≠ .none → t.status = s.status) ∧
      t = { s with status := t.status })

/-- RET pops an entry and continues 2 bytes after it; with an empty stack it changes nothing but the
status. The `+ 2` is the spec's resolution C3 (90_conflicts.md; decision D11, log 13) (R112). -/
def Obligations.ReturnContinuesAfterCallOrUnderflows : Prop :=
  ∀ s : State,
    (∀ k : Fin 16, s.sp.val = k.val + 1 → ∃ t, exec .ret s = .next t ∧
      t.sp.val = k.val ∧ t.pc.toNat = (s.stack[k].toNat + 2) % 65536 ∧
      t = { s with sp := t.sp, pc := t.pc }) ∧
    (s.sp.val = 0 → ∃ t, exec .ret s = .next t ∧
      (s.status = .none → t.status = .stackUnderflow) ∧ (s.status ≠ .none → t.status = s.status) ∧
      t = { s with status := t.status })

/-- SE_IMM and SNE_IMM advance `PC` by 4 when, and only when, their comparison with the immediate holds,
else by 2 (R113, R114). -/
def Obligations.SkipsCompareWithImmediate : Prop :=
  ∀ (x : RegNum) (nn : Byte) (s : State),
    (s.reg x = nn → exec (.seImm x nn) s = .next { s with pc := s.pc + 4 } ∧
      exec (.sneImm x nn) s = .next { s with pc := s.pc + 2 }) ∧
    (s.reg x ≠ nn → exec (.seImm x nn) s = .next { s with pc := s.pc + 2 } ∧
      exec (.sneImm x nn) s = .next { s with pc := s.pc + 4 })

/-- SE_REG and SNE_REG advance `PC` by 4 when, and only when, their comparison of two registers holds,
else by 2 (R115, R116). -/
def Obligations.SkipsCompareRegisters : Prop :=
  ∀ (x y : RegNum) (s : State),
    (s.reg x = s.reg y → exec (.seReg x y) s = .next { s with pc := s.pc + 4 } ∧
      exec (.sneReg x y) s = .next { s with pc := s.pc + 2 }) ∧
    (s.reg x ≠ s.reg y → exec (.seReg x y) s = .next { s with pc := s.pc + 2 } ∧
      exec (.sneReg x y) s = .next { s with pc := s.pc + 4 })

/-- JP_V0 sets `PC` to the exact sum of `V[0]` and the operand, not masked (R117; the stored width is the
spec's decision D12, log 14). -/
def Obligations.JumpWithOffsetAddsRegisterZero : Prop :=
  ∀ (nnn : Addr) (s : State), ∃ t, exec (.jpV0 nnn) s = .next t ∧
    t.pc.toNat = (s.reg 0).toNat + nnn.toNat ∧ t = { s with pc := t.pc }

/-- SYS is consumed: `PC` advances by 2, and the diagnostic pulses with the word `0NNN` if `SYS_DIAG`
(R118, from general knowledge; the spec's decisions D17, D18, log 10). -/
def Obligations.SysIsConsumed : Prop :=
  ∀ (nnn : Addr) (s : State), ∃ t, exec (.sys nnn) s = .next t ∧
    (s.cfg.sysDiag = true → t.diag = some (encode (.sys nnn))) ∧
    (s.cfg.sysDiag = false → t.diag = s.diag) ∧
    t = { s with diag := t.diag, pc := s.pc + 2 }

/-! ## Results: loads and arithmetic (42_load_alu.md) -/

/-- LD_IMM and LD_REG copy a byte to their destination and write no flag (R125, R126). -/
def Obligations.LoadsCopyByte : Prop :=
  ∀ (x y : RegNum) (nn : Byte) (s : State),
    (∃ t, exec (.ldImm x nn) s = .next t ∧ t.reg x = nn ∧ (∀ r, r ≠ x → t.reg r = s.reg r) ∧
      t = { s with v := t.v, pc := s.pc + 2 }) ∧
    (∃ t, exec (.ldReg x y) s = .next t ∧ t.reg x = s.reg y ∧ (∀ r, r ≠ x → t.reg r = s.reg r) ∧
      t = { s with v := t.v, pc := s.pc + 2 })

/-- ADD_IMM adds modulo 256, writes no flag and never halts (R127; the policy is the spec's resolution
C2, decision D9, log 16). -/
def Obligations.AddImmediateWraps : Prop :=
  ∀ (x : RegNum) (nn : Byte) (s : State), ∃ t, exec (.addImm x nn) s = .next t ∧
    (t.reg x).toNat = ((s.reg x).toNat + nn.toNat) % 256 ∧
    (∀ r, r ≠ x → t.reg r = s.reg r) ∧ t = { s with v := t.v, pc := s.pc + 2 }

/-- OR, AND and XOR work bit by bit on `V[X]` and `V[Y]` and write no flag (R128, R129, R130). -/
def Obligations.BitwiseOperationsWorkBitByBit : Prop :=
  ∀ (x y : RegNum) (s : State),
    (∃ t, exec (.orReg x y) s = .next t ∧
      (∀ k, (t.reg x).getLsbD k = ((s.reg x).getLsbD k || (s.reg y).getLsbD k)) ∧
      (∀ r, r ≠ x → t.reg r = s.reg r) ∧ t = { s with v := t.v, pc := s.pc + 2 }) ∧
    (∃ t, exec (.andReg x y) s = .next t ∧
      (∀ k, (t.reg x).getLsbD k = ((s.reg x).getLsbD k && (s.reg y).getLsbD k)) ∧
      (∀ r, r ≠ x → t.reg r = s.reg r) ∧ t = { s with v := t.v, pc := s.pc + 2 }) ∧
    (∃ t, exec (.xorReg x y) s = .next t ∧
      (∀ k, (t.reg x).getLsbD k = ((s.reg x).getLsbD k ^^ (s.reg y).getLsbD k)) ∧
      (∀ r, r ≠ x → t.reg r = s.reg r) ∧ t = { s with v := t.v, pc := s.pc + 2 })

/-- ADD_REG: the sum modulo 256 to `V[X]`, the carry to `VF`; with `X = 15` the carry remains (R131,
R138; the write order is the spec's decision D10, log 12). -/
def Obligations.AddSetsSumAndCarry : Prop :=
  ∀ (x y : RegNum) (s : State), ∃ t, exec (.addReg x y) s = .next t ∧
    t.reg regF = (if 255 < (s.reg x).toNat + (s.reg y).toNat then 1 else 0) ∧
    (x ≠ regF → (t.reg x).toNat = ((s.reg x).toNat + (s.reg y).toNat) % 256) ∧
    (∀ r, r ≠ x → r ≠ regF → t.reg r = s.reg r) ∧ t = { s with v := t.v, pc := s.pc + 2 }

/-- SUB and SUBN: the difference modulo 256 to `V[X]`, 1 to `VF` when the minuend is greater, unsigned and
strictly; with `X = 15` the flag remains (R132, R133, R138; which word takes which order is the spec's
G3 and D16, the write order D10, logs 9, 12 and 17). -/
def Obligations.SubtractionsSetDifferenceAndNoBorrow : Prop :=
  ∀ (x y : RegNum) (s : State),
    (∃ t, exec (.sub x y) s = .next t ∧
      t.reg regF = (if (s.reg y).toNat < (s.reg x).toNat then 1 else 0) ∧
      (x ≠ regF → (t.reg x).toNat = (256 + (s.reg x).toNat - (s.reg y).toNat) % 256) ∧
      (∀ r, r ≠ x → r ≠ regF → t.reg r = s.reg r) ∧ t = { s with v := t.v, pc := s.pc + 2 }) ∧
    (∃ t, exec (.subn x y) s = .next t ∧
      t.reg regF = (if (s.reg x).toNat < (s.reg y).toNat then 1 else 0) ∧
      (x ≠ regF → (t.reg x).toNat = (256 + (s.reg y).toNat - (s.reg x).toNat) % 256) ∧
      (∀ r, r ≠ x → r ≠ regF → t.reg r = s.reg r) ∧ t = { s with v := t.v, pc := s.pc + 2 })

/-- SHR and SHL move `V[X]` one place in place and write the bit shifted out to `VF`; with `X = 15` the
flag remains (R134, R135, R138; the write order is the spec's decision D10, logs 12 and 18). -/
def Obligations.ShiftsMoveOnePlace : Prop :=
  ∀ (x : RegNum) (s : State),
    (∃ t, exec (.shr x) s = .next t ∧ (t.reg regF).toNat = (s.reg x).toNat % 2 ∧
      (x ≠ regF → (t.reg x).toNat = (s.reg x).toNat / 2) ∧
      (∀ r, r ≠ x → r ≠ regF → t.reg r = s.reg r) ∧ t = { s with v := t.v, pc := s.pc + 2 }) ∧
    (∃ t, exec (.shl x) s = .next t ∧ (t.reg regF).toNat = (s.reg x).toNat / 128 ∧
      (x ≠ regF → (t.reg x).toNat = (s.reg x).toNat * 2 % 256) ∧
      (∀ r, r ≠ x → r ≠ regF → t.reg r = s.reg r) ∧ t = { s with v := t.v, pc := s.pc + 2 })

/-- RND: the frame's random byte AND the mask, whatever the byte is (R136; the byte is an input by the
spec's decision D31, log 1). -/
def Obligations.RandomIsMasked : Prop :=
  ∀ (x : RegNum) (nn : Byte) (s : State), ∃ t, exec (.rnd x nn) s = .next t ∧
    t.reg x = s.frameInput.rnd &&& nn ∧ (∀ r, r ≠ x → t.reg r = s.reg r) ∧
    t = { s with v := t.v, pc := s.pc + 2 }

/-! ## Results: index and memory (43_index_memory.md) -/

/-- LD_I: `I` takes the operand (R140, from general knowledge; the spec's decision D17, log 10). -/
def Obligations.LoadIndexTakesOperand : Prop :=
  ∀ (nnn : Addr) (s : State), ∃ t, exec (.ldI nnn) s = .next t ∧ t.i.toNat = nnn.toNat ∧
    t = { s with i := t.i, pc := s.pc + 2 }

/-- ADD_I: `I` is increased by `V[X]` modulo 65536; `VF` is not written (R141). -/
def Obligations.AddToIndexWrapsWithoutFlag : Prop :=
  ∀ (x : RegNum) (s : State), ∃ t, exec (.addI x) s = .next t ∧
    t.i.toNat = (s.i.toNat + (s.reg x).toNat) % 65536 ∧ t = { s with i := t.i, pc := s.pc + 2 }

/-- LD_F: the address of the glyph of a digit 0 to 15; for a greater value nothing is said of `I`, and
everything else is the same (R142; confining the undefined behaviour to `I` is the spec's decision D24,
log 3). -/
def Obligations.FontAddressOfDigit : Prop :=
  ∀ (x : RegNum) (s : State), ∃ t, exec (.ldF x) s = .next t ∧
    ((s.reg x).toNat ≤ 15 → t.i.toNat = 5 * (s.reg x).toNat) ∧
    t = { s with i := t.i, pc := s.pc + 2 }

/-- LD_B stores the hundreds, tens and ones of `V[X]` at `EA(0)`, `EA(1)`, `EA(2)`, and no other byte
(R143). -/
def Obligations.BcdStoresThreeDigits : Prop :=
  ∀ (x : RegNum) (s : State), ∃ t, exec (.ldB x) s = .next t ∧
    (t.memRead (s.effAddr 0)).toNat = (s.reg x).toNat / 100 ∧
    (t.memRead (s.effAddr 1)).toNat = (s.reg x).toNat / 10 % 10 ∧
    (t.memRead (s.effAddr 2)).toNat = (s.reg x).toNat % 10 ∧
    (∀ a, (∀ k < 3, a % 4096 ≠ s.effAddr k) → t.memRead a = s.memRead a) ∧
    t = { s with mem := t.mem, pc := s.pc + 2 }

/-- ST_REGS stores `V[0]` to `V[X]` at `EA(0)` to `EA(X)`, and no other byte; `I` is unchanged (R144; `I`
by the spec's decision D22, log 18). -/
def Obligations.StoreRegistersUpToX : Prop :=
  ∀ (x : RegNum) (s : State), ∃ t, exec (.stRegs x) s = .next t ∧
    (∀ r : RegNum, r.toNat ≤ x.toNat → t.memRead (s.effAddr r.toNat) = s.reg r) ∧
    (∀ a, (∀ k ≤ x.toNat, a % 4096 ≠ s.effAddr k) → t.memRead a = s.memRead a) ∧
    t = { s with mem := t.mem, pc := s.pc + 2 }

/-- LD_REGS loads `V[0]` to `V[X]` from `EA(0)` to `EA(X)`; the registers above and `I` are unchanged
(R145; `I` by the spec's decision D22, log 18). -/
def Obligations.LoadRegistersUpToX : Prop :=
  ∀ (x : RegNum) (s : State), ∃ t, exec (.ldRegs x) s = .next t ∧
    (∀ r : RegNum, r.toNat ≤ x.toNat → t.reg r = s.memRead (s.effAddr r.toNat)) ∧
    (∀ r : RegNum, x.toNat < r.toNat → t.reg r = s.reg r) ∧
    (∀ a, t.memRead a = s.memRead a) ∧ t = { s with v := t.v, pc := s.pc + 2 }

/-! ## Results: display (44_display.md) -/

/-- CLS clears every pixel and sets `DIRTY` if some pixel was set (R151, from general knowledge; the
spec's decisions D17, D25, logs 10 and 20). -/
def Obligations.ClearBlanksEveryPixel : Prop :=
  ∀ s : State, ∃ t, exec .cls s = .next t ∧
    (∀ px < 64, ∀ py < 32, t.pixel px py = false) ∧
    (t.dirty = true ↔ s.dirty = true ∨ ∃ px < 64, ∃ py < 32, s.pixel px py = true) ∧
    t = { s with fb := t.fb, dirty := t.dirty, pc := s.pc + 2 }

/-- DRW toggles exactly the pixels its sprite hits, with wrap-around on both axes; `VF` tells whether one
of them was set; `DIRTY` is set if the sprite hits anything (R150, R152; the spec's decisions D10, D25,
D40, logs 12 and 20). -/
def Obligations.DrawTogglesSpritePixels : Prop :=
  ∀ (x y : RegNum) (n : Nibble) (s : State), ∃ t, exec (.drw x y n) s = .next t ∧
    (∀ px < 64, ∀ py < 32,
      (s.spriteHits x y n px py → t.pixel px py = !s.pixel px py) ∧
      (¬ s.spriteHits x y n px py → t.pixel px py = s.pixel px py)) ∧
    ((∃ px < 64, ∃ py < 32, s.spriteHits x y n px py ∧ s.pixel px py = true) → t.reg regF = 1) ∧
    ((∀ px < 64, ∀ py < 32, s.spriteHits x y n px py → s.pixel px py = false) → t.reg regF = 0) ∧
    (t.dirty = true ↔ s.dirty = true ∨ ∃ px < 64, ∃ py < 32, s.spriteHits x y n px py) ∧
    (∀ r, r ≠ regF → t.reg r = s.reg r) ∧ (∀ a, t.memRead a = s.memRead a) ∧
    t = { s with v := t.v, fb := t.fb, dirty := t.dirty, pc := s.pc + 2 }

/-- "drawing the same sprite twice at the same location toggles all affected pixels back off and reports
collision (flag 1) on the second draw" (95_test_vectors.md S11; R152): two draws leave the display as it
was, and the second collides if the sprite hits a pixel that was not set. The coordinates are in registers
other than `VF`, which the first draw overwrites. -/
def Obligations.DrawingTwiceRestoresDisplay : Prop :=
  ∀ (x y : RegNum) (n : Nibble) (s t u : State), x ≠ regF → y ≠ regF →
    exec (.drw x y n) s = .next t → exec (.drw x y n) t = .next u →
    u.fb = s.fb ∧
    ((∃ px < 64, ∃ py < 32, s.spriteHits x y n px py ∧ s.pixel px py = false) → u.reg regF = 1)

/-! ## Results: keypad and timers (45_input_timers.md) -/

/-- SKP skips when the key `V[X]` is held and SKNP when it is not; a value above 15 names no key, so SKP
does not skip and SKNP does (R155, R156; the last by the spec's decision D23, log 19). -/
def Obligations.KeySkipsReadHeldKeys : Prop :=
  ∀ (x : RegNum) (s : State),
    ((s.reg x).toNat ≤ 15 ∧ s.frameInput.keys.getLsbD (s.reg x).toNat = true →
      exec (.skp x) s = .next { s with pc := s.pc + 4 } ∧
      exec (.sknp x) s = .next { s with pc := s.pc + 2 }) ∧
    (15 < (s.reg x).toNat ∨ s.frameInput.keys.getLsbD (s.reg x).toNat = false →
      exec (.skp x) s = .next { s with pc := s.pc + 2 } ∧
      exec (.sknp x) s = .next { s with pc := s.pc + 4 })

/-- LD_VX_DT copies `DT`; LD_DT_VX and LD_ST_VX load a timer and clear its accumulator, and leave the
other timer's (R157, R159, R160). -/
def Obligations.TimerLoadsAndReads : Prop :=
  ∀ (x : RegNum) (s : State),
    (∃ t, exec (.ldVxDt x) s = .next t ∧ t.reg x = s.dt ∧ (∀ r, r ≠ x → t.reg r = s.reg r) ∧
      t = { s with v := t.v, pc := s.pc + 2 }) ∧
    exec (.ldDtVx x) s = .next { s with dt := s.reg x, accDelay := 0, pc := s.pc + 2 } ∧
    exec (.ldStVx x) s = .next { s with st := s.reg x, accSound := 0, pc := s.pc + 2 }

/-- LD_VX_K starts the wait for `V[X]` and advances `PC` now; no register is written (R158). -/
def Obligations.AwaitKeySuspendsAfterAdvance : Prop :=
  ∀ (x : RegNum) (s : State),
    exec (.ldVxK x) s = .next { s with awaiting := true, target := x, pc := s.pc + 2 }
end

