-- ==== Sys2Proof/Laws/Decode.lean ====
section
/-! SUPPORT. The fields of a word made by the encoder, and the word put together from its fields: all the
decoder and the encoder need to know of bits. -/

namespace Sys2Proof

/-! ### Fields of the three word shapes (30_encoding.md R71, R73) -/

@[simp] theorem fieldOp_wordAddr (op : BitVec 4) (nnn : Addr) : fieldOp (wordAddr op nnn) = op := by
  refine BitVec.eq_of_getLsbD_eq fun k hk => ?_
  simp only [fieldOp, wordAddr, BitVec.getLsbD_extractLsb', BitVec.getLsbD_append]
  simp [hk]

@[simp] theorem fieldNNN_wordAddr (op : BitVec 4) (nnn : Addr) :
    fieldNNN (wordAddr op nnn) = nnn := by
  refine BitVec.eq_of_getLsbD_eq fun k hk => ?_
  simp only [fieldNNN, wordAddr, BitVec.getLsbD_extractLsb', BitVec.getLsbD_append]
  simp [hk]

@[simp] theorem fieldNN_wordAddr (op : BitVec 4) (nnn : Addr) :
    fieldNN (wordAddr op nnn) = nnn.extractLsb' 0 8 := by
  refine BitVec.eq_of_getLsbD_eq fun k hk => ?_
  have : k < 12 := by omega
  simp only [fieldNN, wordAddr, BitVec.getLsbD_extractLsb', BitVec.getLsbD_append]
  simp [hk, this]

@[simp] theorem fieldOp_wordXNN (op : BitVec 4) (x : RegNum) (nn : Byte) :
    fieldOp (wordXNN op x nn) = op := by
  refine BitVec.eq_of_getLsbD_eq fun k hk => ?_
  have : ¬ 12 + k < 8 := by omega
  have : 12 + k - 8 - 4 = k := by omega
  have : ¬ 12 + k - 8 < 4 := by omega
  simp only [fieldOp, wordXNN, BitVec.getLsbD_extractLsb', BitVec.getLsbD_append]
  simp [*]

@[simp] theorem fieldX_wordXNN (op : BitVec 4) (x : RegNum) (nn : Byte) :
    fieldX (wordXNN op x nn) = x := by
  refine BitVec.eq_of_getLsbD_eq fun k hk => ?_
  simp only [fieldX, wordXNN, BitVec.getLsbD_extractLsb', BitVec.getLsbD_append]
  simp [*]

@[simp] theorem fieldNN_wordXNN (op : BitVec 4) (x : RegNum) (nn : Byte) :
    fieldNN (wordXNN op x nn) = nn := by
  refine BitVec.eq_of_getLsbD_eq fun k hk => ?_
  simp only [fieldNN, wordXNN, BitVec.getLsbD_extractLsb', BitVec.getLsbD_append]
  simp [*]

@[simp] theorem fieldOp_wordXYN (op : BitVec 4) (x y : RegNum) (n : Nibble) :
    fieldOp (wordXYN op x y n) = op := by
  refine BitVec.eq_of_getLsbD_eq fun k hk => ?_
  have : ¬ 12 + k < 4 := by omega
  have : ¬ 12 + k - 4 < 4 := by omega
  have : ¬ 12 + k - 4 - 4 < 4 := by omega
  have : 12 + k - 4 - 4 - 4 = k := by omega
  simp only [fieldOp, wordXYN, BitVec.getLsbD_extractLsb', BitVec.getLsbD_append]
  simp [*]

@[simp] theorem fieldX_wordXYN (op : BitVec 4) (x y : RegNum) (n : Nibble) :
    fieldX (wordXYN op x y n) = x := by
  refine BitVec.eq_of_getLsbD_eq fun k hk => ?_
  have : ¬ 8 + k < 4 := by omega
  have : ¬ 8 + k - 4 < 4 := by omega
  have : 8 + k - 4 - 4 = k := by omega
  simp only [fieldX, wordXYN, BitVec.getLsbD_extractLsb', BitVec.getLsbD_append]
  simp [*]

@[simp] theorem fieldY_wordXYN (op : BitVec 4) (x y : RegNum) (n : Nibble) :
    fieldY (wordXYN op x y n) = y := by
  refine BitVec.eq_of_getLsbD_eq fun k hk => ?_
  simp only [fieldY, wordXYN, BitVec.getLsbD_extractLsb', BitVec.getLsbD_append]
  simp [*]

@[simp] theorem fieldN_wordXYN (op : BitVec 4) (x y : RegNum) (n : Nibble) :
    fieldN (wordXYN op x y n) = n := by
  refine BitVec.eq_of_getLsbD_eq fun k hk => ?_
  simp only [fieldN, wordXYN, BitVec.getLsbD_extractLsb', BitVec.getLsbD_append]
  simp [*]

/-! ### A word from its fields -/

theorem word_eq_wordAddr (w : Word) : w = wordAddr (fieldOp w) (fieldNNN w) := by
  refine BitVec.eq_of_getLsbD_eq fun k hk => ?_
  simp only [wordAddr, fieldOp, fieldNNN, BitVec.getLsbD_append, BitVec.getLsbD_extractLsb']
  by_cases h : k < 12
  · simp [h]
  · have h1 : k - 12 < 4 := by omega
    have h2 : 12 + (k - 12) = k := by omega
    simp [h, h1, h2]

theorem fieldNNN_eq (w : Word) : fieldNNN w = (fieldX w ++ fieldNN w : BitVec (4 + 8)) := by
  refine BitVec.eq_of_getLsbD_eq fun k hk => ?_
  simp only [fieldX, fieldNN, fieldNNN, BitVec.getLsbD_append, BitVec.getLsbD_extractLsb']
  by_cases h : k < 8
  · simp [h, hk]
  · have h1 : k - 8 < 4 := by omega
    have h2 : 8 + (k - 8) = k := by omega
    simp [h, h1, h2, hk]

theorem fieldNN_eq (w : Word) : fieldNN w = (fieldY w ++ fieldN w : BitVec (4 + 4)) := by
  refine BitVec.eq_of_getLsbD_eq fun k hk => ?_
  simp only [fieldY, fieldNN, fieldN, BitVec.getLsbD_append, BitVec.getLsbD_extractLsb']
  by_cases h : k < 4
  · simp [h, hk]
  · have h1 : k - 4 < 4 := by omega
    have h2 : 4 + (k - 4) = k := by omega
    simp [h, h1, h2, hk]

theorem word_eq_wordXNN (w : Word) : w = wordXNN (fieldOp w) (fieldX w) (fieldNN w) := by
  refine BitVec.eq_of_getLsbD_eq fun k hk => ?_
  simp only [wordXNN, fieldOp, fieldX, fieldNN, BitVec.getLsbD_append, BitVec.getLsbD_extractLsb']
  rcases Nat.lt_or_ge k 8 with h | h
  · simp [h]
  · have e : 8 + (k - 8) = k := by omega
    rcases Nat.lt_or_ge k 12 with h' | h'
    · simp [show ¬ k < 8 by omega, show k - 8 < 4 by omega, e]
    · simp [show ¬ k < 8 by omega, show ¬ k - 8 < 4 by omega, show k - 8 - 4 < 4 by omega,
        show 12 + (k - 8 - 4) = k by omega]

theorem word_eq_wordXYN (w : Word) :
    w = wordXYN (fieldOp w) (fieldX w) (fieldY w) (fieldN w) := by
  refine BitVec.eq_of_getLsbD_eq fun k hk => ?_
  simp only [wordXYN, fieldOp, fieldX, fieldY, fieldN, BitVec.getLsbD_append,
    BitVec.getLsbD_extractLsb']
  rcases Nat.lt_or_ge k 4 with h | h
  · simp [h]
  · rcases Nat.lt_or_ge k 8 with h' | h'
    · simp [show ¬ k < 4 by omega, show k - 4 < 4 by omega, show 4 + (k - 4) = k by omega]
    · rcases Nat.lt_or_ge k 12 with h2 | h2
      · simp [show ¬ k < 4 by omega, show ¬ k - 4 < 4 by omega, show k - 4 - 4 < 4 by omega,
          show 8 + (k - 4 - 4) = k by omega]
      · simp [show ¬ k < 4 by omega, show ¬ k - 4 < 4 by omega, show ¬ k - 4 - 4 < 4 by omega,
          show k - 4 - 4 - 4 < 4 by omega, show 12 + (k - 4 - 4 - 4) = k by omega]

/-- A word is the big-endian word of its two bytes (20_memory.md R52). -/
@[simp] theorem wordOfBytes_extract (w : Word) :
    wordOfBytes (w.extractLsb' 8 8) (w.extractLsb' 0 8) = w := by
  refine BitVec.eq_of_getLsbD_eq fun k hk => ?_
  simp only [wordOfBytes, BitVec.getLsbD_append, BitVec.getLsbD_extractLsb']
  by_cases h : k < 8
  · simp [h]
  · have h1 : k - 8 < 8 := by omega
    have h2 : 8 + (k - 8) = k := by omega
    simp [h, h1, h2]

/-! ### Masks -/

/-- The three masks of the opcode table keep `OP`, `OP` and `N`, `OP` and `NN` (R86). -/
theorem and_F000 (w : Word) : w &&& 0xF000#16 = wordAddr (fieldOp w) 0#12 := by
  refine BitVec.eq_of_getLsbD_eq fun k hk => ?_
  simp only [wordAddr, fieldOp, BitVec.getLsbD_and, BitVec.getLsbD_append, BitVec.getLsbD_extractLsb']
  have : k = 0 ∨ k = 1 ∨ k = 2 ∨ k = 3 ∨ k = 4 ∨ k = 5 ∨ k = 6 ∨ k = 7 ∨ k = 8 ∨ k = 9 ∨ k = 10 ∨
    k = 11 ∨ k = 12 ∨ k = 13 ∨ k = 14 ∨ k = 15 := by omega
  rcases this with h | h | h | h | h | h | h | h | h | h | h | h | h | h | h | h <;> subst h <;> simp

theorem and_F00F (w : Word) : w &&& 0xF00F#16 = wordXYN (fieldOp w) 0#4 0#4 (fieldN w) := by
  refine BitVec.eq_of_getLsbD_eq fun k hk => ?_
  simp only [wordXYN, fieldOp, fieldN, BitVec.getLsbD_and, BitVec.getLsbD_append,
    BitVec.getLsbD_extractLsb']
  have : k = 0 ∨ k = 1 ∨ k = 2 ∨ k = 3 ∨ k = 4 ∨ k = 5 ∨ k = 6 ∨ k = 7 ∨ k = 8 ∨ k = 9 ∨ k = 10 ∨
    k = 11 ∨ k = 12 ∨ k = 13 ∨ k = 14 ∨ k = 15 := by omega
  rcases this with h | h | h | h | h | h | h | h | h | h | h | h | h | h | h | h <;> subst h <;> simp

theorem and_F0FF (w : Word) : w &&& 0xF0FF#16 = wordXNN (fieldOp w) 0#4 (fieldNN w) := by
  refine BitVec.eq_of_getLsbD_eq fun k hk => ?_
  simp only [wordXNN, fieldOp, fieldNN, BitVec.getLsbD_and, BitVec.getLsbD_append,
    BitVec.getLsbD_extractLsb']
  have : k = 0 ∨ k = 1 ∨ k = 2 ∨ k = 3 ∨ k = 4 ∨ k = 5 ∨ k = 6 ∨ k = 7 ∨ k = 8 ∨ k = 9 ∨ k = 10 ∨
    k = 11 ∨ k = 12 ∨ k = 13 ∨ k = 14 ∨ k = 15 := by omega
  rcases this with h | h | h | h | h | h | h | h | h | h | h | h | h | h | h | h <;> subst h <;> simp

/-! ### The first switch, by families (R75) -/

theorem nibble_cases (b : BitVec 4) :
    b = 0x0#4 ∨ b = 0x1#4 ∨ b = 0x2#4 ∨ b = 0x3#4 ∨ b = 0x4#4 ∨ b = 0x5#4 ∨ b = 0x6#4 ∨ b = 0x7#4 ∨
    b = 0x8#4 ∨ b = 0x9#4 ∨ b = 0xA#4 ∨ b = 0xB#4 ∨ b = 0xC#4 ∨ b = 0xD#4 ∨ b = 0xE#4 ∨ b = 0xF#4 := by
  revert b; decide

variable {w : Word}

theorem decodeWord_family0 (h : fieldOp w = 0x0#4) : decodeWord w = .ok (decode0 w) := by
  simp [decodeWord, h]

theorem decodeWord_family1 (h : fieldOp w = 0x1#4) : decodeWord w = .ok (.jp (fieldNNN w)) := by
  simp [decodeWord, h]

theorem decodeWord_family2 (h : fieldOp w = 0x2#4) : decodeWord w = .ok (.call (fieldNNN w)) := by
  simp [decodeWord, h]

theorem decodeWord_family3 (h : fieldOp w = 0x3#4) : decodeWord w = .ok (.seImm (fieldX w) (fieldNN w)) := by
  simp [decodeWord, h]

theorem decodeWord_family4 (h : fieldOp w = 0x4#4) : decodeWord w = .ok (.sneImm (fieldX w) (fieldNN w)) := by
  simp [decodeWord, h]

theorem decodeWord_family5 (h : fieldOp w = 0x5#4) : decodeWord w = .ok (.seReg (fieldX w) (fieldY w)) := by
  simp [decodeWord, h]

theorem decodeWord_family6 (h : fieldOp w = 0x6#4) : decodeWord w = .ok (.ldImm (fieldX w) (fieldNN w)) := by
  simp [decodeWord, h]

theorem decodeWord_family7 (h : fieldOp w = 0x7#4) : decodeWord w = .ok (.addImm (fieldX w) (fieldNN w)) := by
  simp [decodeWord, h]

theorem decodeWord_family8 (h : fieldOp w = 0x8#4) : decodeWord w = decode8 w := by
  simp [decodeWord, h]

theorem decodeWord_family9 (h : fieldOp w = 0x9#4) : decodeWord w = .ok (.sneReg (fieldX w) (fieldY w)) := by
  simp [decodeWord, h]

theorem decodeWord_familyA (h : fieldOp w = 0xA#4) : decodeWord w = .ok (.ldI (fieldNNN w)) := by
  simp [decodeWord, h]

theorem decodeWord_familyB (h : fieldOp w = 0xB#4) : decodeWord w = .ok (.jpV0 (fieldNNN w)) := by
  simp [decodeWord, h]

theorem decodeWord_familyC (h : fieldOp w = 0xC#4) : decodeWord w = .ok (.rnd (fieldX w) (fieldNN w)) := by
  simp [decodeWord, h]

theorem decodeWord_familyD (h : fieldOp w = 0xD#4) : decodeWord w = .ok (.drw (fieldX w) (fieldY w) (fieldN w)) := by
  simp [decodeWord, h]

theorem decodeWord_familyE (h : fieldOp w = 0xE#4) : decodeWord w = decodeE w := by
  simp [decodeWord, h]

theorem decodeWord_familyF (h : fieldOp w = 0xF#4) : decodeWord w = decodeF w := by
  simp [decodeWord, h]

end Sys2Proof
end

