-- ==== Sys2Proof/Laws/State.lean ====
section
/-! SUPPORT. One lemma a field an update, each true by rfl: what every plain update of the state writes
and what it leaves. -/

namespace Sys2Proof.Machine

variable (s : State)

/-! ### memWrite -/

@[simp] theorem State.memWrite_v (a : Nat) (b : Byte) : (s.memWrite a b).v = s.v := rfl
@[simp] theorem State.memWrite_pc (a : Nat) (b : Byte) : (s.memWrite a b).pc = s.pc := rfl
@[simp] theorem State.memWrite_i (a : Nat) (b : Byte) : (s.memWrite a b).i = s.i := rfl
@[simp] theorem State.memWrite_sp (a : Nat) (b : Byte) : (s.memWrite a b).sp = s.sp := rfl
@[simp] theorem State.memWrite_stack (a : Nat) (b : Byte) : (s.memWrite a b).stack = s.stack := rfl
@[simp] theorem State.memWrite_dt (a : Nat) (b : Byte) : (s.memWrite a b).dt = s.dt := rfl
@[simp] theorem State.memWrite_st (a : Nat) (b : Byte) : (s.memWrite a b).st = s.st := rfl
@[simp] theorem State.memWrite_status (a : Nat) (b : Byte) : (s.memWrite a b).status = s.status := rfl
@[simp] theorem State.memWrite_awaiting (a : Nat) (b : Byte) : (s.memWrite a b).awaiting = s.awaiting := rfl
@[simp] theorem State.memWrite_target (a : Nat) (b : Byte) : (s.memWrite a b).target = s.target := rfl
@[simp] theorem State.memWrite_accInstr (a : Nat) (b : Byte) : (s.memWrite a b).accInstr = s.accInstr := rfl
@[simp] theorem State.memWrite_accDelay (a : Nat) (b : Byte) : (s.memWrite a b).accDelay = s.accDelay := rfl
@[simp] theorem State.memWrite_accSound (a : Nat) (b : Byte) : (s.memWrite a b).accSound = s.accSound := rfl
@[simp] theorem State.memWrite_accRedraw (a : Nat) (b : Byte) : (s.memWrite a b).accRedraw = s.accRedraw := rfl
@[simp] theorem State.memWrite_fb (a : Nat) (b : Byte) : (s.memWrite a b).fb = s.fb := rfl
@[simp] theorem State.memWrite_dirty (a : Nat) (b : Byte) : (s.memWrite a b).dirty = s.dirty := rfl
@[simp] theorem State.memWrite_mem (a : Nat) (b : Byte) : (s.memWrite a b).mem = cellWrite s.cfg.font s.mem (maskAddr a) b := rfl
@[simp] theorem State.memWrite_progEnd (a : Nat) (b : Byte) : (s.memWrite a b).progEnd = s.progEnd := rfl
@[simp] theorem State.memWrite_cfg (a : Nat) (b : Byte) : (s.memWrite a b).cfg = s.cfg := rfl
@[simp] theorem State.memWrite_inputs (a : Nat) (b : Byte) : (s.memWrite a b).inputs = s.inputs := rfl
@[simp] theorem State.memWrite_frames (a : Nat) (b : Byte) : (s.memWrite a b).frames = s.frames := rfl
@[simp] theorem State.memWrite_diag (a : Nat) (b : Byte) : (s.memWrite a b).diag = s.diag := rfl
@[simp] theorem State.memWrite_render (a : Nat) (b : Byte) : (s.memWrite a b).render = s.render := rfl

/-! ### setReg -/

@[simp] theorem State.setReg_v (x : RegNum) (b : Byte) : (s.setReg x b).v = s.v.set x.toNat b := rfl
@[simp] theorem State.setReg_pc (x : RegNum) (b : Byte) : (s.setReg x b).pc = s.pc := rfl
@[simp] theorem State.setReg_i (x : RegNum) (b : Byte) : (s.setReg x b).i = s.i := rfl
@[simp] theorem State.setReg_sp (x : RegNum) (b : Byte) : (s.setReg x b).sp = s.sp := rfl
@[simp] theorem State.setReg_stack (x : RegNum) (b : Byte) : (s.setReg x b).stack = s.stack := rfl
@[simp] theorem State.setReg_dt (x : RegNum) (b : Byte) : (s.setReg x b).dt = s.dt := rfl
@[simp] theorem State.setReg_st (x : RegNum) (b : Byte) : (s.setReg x b).st = s.st := rfl
@[simp] theorem State.setReg_status (x : RegNum) (b : Byte) : (s.setReg x b).status = s.status := rfl
@[simp] theorem State.setReg_awaiting (x : RegNum) (b : Byte) : (s.setReg x b).awaiting = s.awaiting := rfl
@[simp] theorem State.setReg_target (x : RegNum) (b : Byte) : (s.setReg x b).target = s.target := rfl
@[simp] theorem State.setReg_accInstr (x : RegNum) (b : Byte) : (s.setReg x b).accInstr = s.accInstr := rfl
@[simp] theorem State.setReg_accDelay (x : RegNum) (b : Byte) : (s.setReg x b).accDelay = s.accDelay := rfl
@[simp] theorem State.setReg_accSound (x : RegNum) (b : Byte) : (s.setReg x b).accSound = s.accSound := rfl
@[simp] theorem State.setReg_accRedraw (x : RegNum) (b : Byte) : (s.setReg x b).accRedraw = s.accRedraw := rfl
@[simp] theorem State.setReg_fb (x : RegNum) (b : Byte) : (s.setReg x b).fb = s.fb := rfl
@[simp] theorem State.setReg_dirty (x : RegNum) (b : Byte) : (s.setReg x b).dirty = s.dirty := rfl
@[simp] theorem State.setReg_mem (x : RegNum) (b : Byte) : (s.setReg x b).mem = s.mem := rfl
@[simp] theorem State.setReg_progEnd (x : RegNum) (b : Byte) : (s.setReg x b).progEnd = s.progEnd := rfl
@[simp] theorem State.setReg_cfg (x : RegNum) (b : Byte) : (s.setReg x b).cfg = s.cfg := rfl
@[simp] theorem State.setReg_inputs (x : RegNum) (b : Byte) : (s.setReg x b).inputs = s.inputs := rfl
@[simp] theorem State.setReg_frames (x : RegNum) (b : Byte) : (s.setReg x b).frames = s.frames := rfl
@[simp] theorem State.setReg_diag (x : RegNum) (b : Byte) : (s.setReg x b).diag = s.diag := rfl
@[simp] theorem State.setReg_render (x : RegNum) (b : Byte) : (s.setReg x b).render = s.render := rfl

/-! ### setResultFlag -/

@[simp] theorem State.setResultFlag_pc (x : RegNum) (r f : Byte) : (s.setResultFlag x r f).pc = s.pc := rfl
@[simp] theorem State.setResultFlag_i (x : RegNum) (r f : Byte) : (s.setResultFlag x r f).i = s.i := rfl
@[simp] theorem State.setResultFlag_sp (x : RegNum) (r f : Byte) : (s.setResultFlag x r f).sp = s.sp := rfl
@[simp] theorem State.setResultFlag_stack (x : RegNum) (r f : Byte) : (s.setResultFlag x r f).stack = s.stack := rfl
@[simp] theorem State.setResultFlag_dt (x : RegNum) (r f : Byte) : (s.setResultFlag x r f).dt = s.dt := rfl
@[simp] theorem State.setResultFlag_st (x : RegNum) (r f : Byte) : (s.setResultFlag x r f).st = s.st := rfl
@[simp] theorem State.setResultFlag_status (x : RegNum) (r f : Byte) : (s.setResultFlag x r f).status = s.status := rfl
@[simp] theorem State.setResultFlag_awaiting (x : RegNum) (r f : Byte) : (s.setResultFlag x r f).awaiting = s.awaiting := rfl
@[simp] theorem State.setResultFlag_target (x : RegNum) (r f : Byte) : (s.setResultFlag x r f).target = s.target := rfl
@[simp] theorem State.setResultFlag_accInstr (x : RegNum) (r f : Byte) : (s.setResultFlag x r f).accInstr = s.accInstr := rfl
@[simp] theorem State.setResultFlag_accDelay (x : RegNum) (r f : Byte) : (s.setResultFlag x r f).accDelay = s.accDelay := rfl
@[simp] theorem State.setResultFlag_accSound (x : RegNum) (r f : Byte) : (s.setResultFlag x r f).accSound = s.accSound := rfl
@[simp] theorem State.setResultFlag_accRedraw (x : RegNum) (r f : Byte) : (s.setResultFlag x r f).accRedraw = s.accRedraw := rfl
@[simp] theorem State.setResultFlag_fb (x : RegNum) (r f : Byte) : (s.setResultFlag x r f).fb = s.fb := rfl
@[simp] theorem State.setResultFlag_dirty (x : RegNum) (r f : Byte) : (s.setResultFlag x r f).dirty = s.dirty := rfl
@[simp] theorem State.setResultFlag_mem (x : RegNum) (r f : Byte) : (s.setResultFlag x r f).mem = s.mem := rfl
@[simp] theorem State.setResultFlag_progEnd (x : RegNum) (r f : Byte) : (s.setResultFlag x r f).progEnd = s.progEnd := rfl
@[simp] theorem State.setResultFlag_cfg (x : RegNum) (r f : Byte) : (s.setResultFlag x r f).cfg = s.cfg := rfl
@[simp] theorem State.setResultFlag_inputs (x : RegNum) (r f : Byte) : (s.setResultFlag x r f).inputs = s.inputs := rfl
@[simp] theorem State.setResultFlag_frames (x : RegNum) (r f : Byte) : (s.setResultFlag x r f).frames = s.frames := rfl
@[simp] theorem State.setResultFlag_diag (x : RegNum) (r f : Byte) : (s.setResultFlag x r f).diag = s.diag := rfl
@[simp] theorem State.setResultFlag_render (x : RegNum) (r f : Byte) : (s.setResultFlag x r f).render = s.render := rfl

/-! ### jumpTo -/

@[simp] theorem State.jumpTo_v (w : Word) : (s.jumpTo w).v = s.v := rfl
@[simp] theorem State.jumpTo_pc (w : Word) : (s.jumpTo w).pc = w := rfl
@[simp] theorem State.jumpTo_i (w : Word) : (s.jumpTo w).i = s.i := rfl
@[simp] theorem State.jumpTo_sp (w : Word) : (s.jumpTo w).sp = s.sp := rfl
@[simp] theorem State.jumpTo_stack (w : Word) : (s.jumpTo w).stack = s.stack := rfl
@[simp] theorem State.jumpTo_dt (w : Word) : (s.jumpTo w).dt = s.dt := rfl
@[simp] theorem State.jumpTo_st (w : Word) : (s.jumpTo w).st = s.st := rfl
@[simp] theorem State.jumpTo_status (w : Word) : (s.jumpTo w).status = s.status := rfl
@[simp] theorem State.jumpTo_awaiting (w : Word) : (s.jumpTo w).awaiting = s.awaiting := rfl
@[simp] theorem State.jumpTo_target (w : Word) : (s.jumpTo w).target = s.target := rfl
@[simp] theorem State.jumpTo_accInstr (w : Word) : (s.jumpTo w).accInstr = s.accInstr := rfl
@[simp] theorem State.jumpTo_accDelay (w : Word) : (s.jumpTo w).accDelay = s.accDelay := rfl
@[simp] theorem State.jumpTo_accSound (w : Word) : (s.jumpTo w).accSound = s.accSound := rfl
@[simp] theorem State.jumpTo_accRedraw (w : Word) : (s.jumpTo w).accRedraw = s.accRedraw := rfl
@[simp] theorem State.jumpTo_fb (w : Word) : (s.jumpTo w).fb = s.fb := rfl
@[simp] theorem State.jumpTo_dirty (w : Word) : (s.jumpTo w).dirty = s.dirty := rfl
@[simp] theorem State.jumpTo_mem (w : Word) : (s.jumpTo w).mem = s.mem := rfl
@[simp] theorem State.jumpTo_progEnd (w : Word) : (s.jumpTo w).progEnd = s.progEnd := rfl
@[simp] theorem State.jumpTo_cfg (w : Word) : (s.jumpTo w).cfg = s.cfg := rfl
@[simp] theorem State.jumpTo_inputs (w : Word) : (s.jumpTo w).inputs = s.inputs := rfl
@[simp] theorem State.jumpTo_frames (w : Word) : (s.jumpTo w).frames = s.frames := rfl
@[simp] theorem State.jumpTo_diag (w : Word) : (s.jumpTo w).diag = s.diag := rfl
@[simp] theorem State.jumpTo_render (w : Word) : (s.jumpTo w).render = s.render := rfl

/-! ### advance -/

@[simp] theorem State.advance_v : (s.advance).v = s.v := rfl
@[simp] theorem State.advance_pc : (s.advance).pc = s.pc + 2 := rfl
@[simp] theorem State.advance_i : (s.advance).i = s.i := rfl
@[simp] theorem State.advance_sp : (s.advance).sp = s.sp := rfl
@[simp] theorem State.advance_stack : (s.advance).stack = s.stack := rfl
@[simp] theorem State.advance_dt : (s.advance).dt = s.dt := rfl
@[simp] theorem State.advance_st : (s.advance).st = s.st := rfl
@[simp] theorem State.advance_status : (s.advance).status = s.status := rfl
@[simp] theorem State.advance_awaiting : (s.advance).awaiting = s.awaiting := rfl
@[simp] theorem State.advance_target : (s.advance).target = s.target := rfl
@[simp] theorem State.advance_accInstr : (s.advance).accInstr = s.accInstr := rfl
@[simp] theorem State.advance_accDelay : (s.advance).accDelay = s.accDelay := rfl
@[simp] theorem State.advance_accSound : (s.advance).accSound = s.accSound := rfl
@[simp] theorem State.advance_accRedraw : (s.advance).accRedraw = s.accRedraw := rfl
@[simp] theorem State.advance_fb : (s.advance).fb = s.fb := rfl
@[simp] theorem State.advance_dirty : (s.advance).dirty = s.dirty := rfl
@[simp] theorem State.advance_mem : (s.advance).mem = s.mem := rfl
@[simp] theorem State.advance_progEnd : (s.advance).progEnd = s.progEnd := rfl
@[simp] theorem State.advance_cfg : (s.advance).cfg = s.cfg := rfl
@[simp] theorem State.advance_inputs : (s.advance).inputs = s.inputs := rfl
@[simp] theorem State.advance_frames : (s.advance).frames = s.frames := rfl
@[simp] theorem State.advance_diag : (s.advance).diag = s.diag := rfl
@[simp] theorem State.advance_render : (s.advance).render = s.render := rfl

/-! ### skipIf -/

@[simp] theorem State.skipIf_v (c : Bool) : (s.skipIf c).v = s.v := rfl
@[simp] theorem State.skipIf_pc (c : Bool) : (s.skipIf c).pc = if c then s.pc + 4 else s.pc + 2 := rfl
@[simp] theorem State.skipIf_i (c : Bool) : (s.skipIf c).i = s.i := rfl
@[simp] theorem State.skipIf_sp (c : Bool) : (s.skipIf c).sp = s.sp := rfl
@[simp] theorem State.skipIf_stack (c : Bool) : (s.skipIf c).stack = s.stack := rfl
@[simp] theorem State.skipIf_dt (c : Bool) : (s.skipIf c).dt = s.dt := rfl
@[simp] theorem State.skipIf_st (c : Bool) : (s.skipIf c).st = s.st := rfl
@[simp] theorem State.skipIf_status (c : Bool) : (s.skipIf c).status = s.status := rfl
@[simp] theorem State.skipIf_awaiting (c : Bool) : (s.skipIf c).awaiting = s.awaiting := rfl
@[simp] theorem State.skipIf_target (c : Bool) : (s.skipIf c).target = s.target := rfl
@[simp] theorem State.skipIf_accInstr (c : Bool) : (s.skipIf c).accInstr = s.accInstr := rfl
@[simp] theorem State.skipIf_accDelay (c : Bool) : (s.skipIf c).accDelay = s.accDelay := rfl
@[simp] theorem State.skipIf_accSound (c : Bool) : (s.skipIf c).accSound = s.accSound := rfl
@[simp] theorem State.skipIf_accRedraw (c : Bool) : (s.skipIf c).accRedraw = s.accRedraw := rfl
@[simp] theorem State.skipIf_fb (c : Bool) : (s.skipIf c).fb = s.fb := rfl
@[simp] theorem State.skipIf_dirty (c : Bool) : (s.skipIf c).dirty = s.dirty := rfl
@[simp] theorem State.skipIf_mem (c : Bool) : (s.skipIf c).mem = s.mem := rfl
@[simp] theorem State.skipIf_progEnd (c : Bool) : (s.skipIf c).progEnd = s.progEnd := rfl
@[simp] theorem State.skipIf_cfg (c : Bool) : (s.skipIf c).cfg = s.cfg := rfl
@[simp] theorem State.skipIf_inputs (c : Bool) : (s.skipIf c).inputs = s.inputs := rfl
@[simp] theorem State.skipIf_frames (c : Bool) : (s.skipIf c).frames = s.frames := rfl
@[simp] theorem State.skipIf_diag (c : Bool) : (s.skipIf c).diag = s.diag := rfl
@[simp] theorem State.skipIf_render (c : Bool) : (s.skipIf c).render = s.render := rfl

/-! ### pulseDiag -/

@[simp] theorem State.pulseDiag_v (w : Word) : (s.pulseDiag w).v = s.v := rfl
@[simp] theorem State.pulseDiag_pc (w : Word) : (s.pulseDiag w).pc = s.pc := rfl
@[simp] theorem State.pulseDiag_i (w : Word) : (s.pulseDiag w).i = s.i := rfl
@[simp] theorem State.pulseDiag_sp (w : Word) : (s.pulseDiag w).sp = s.sp := rfl
@[simp] theorem State.pulseDiag_stack (w : Word) : (s.pulseDiag w).stack = s.stack := rfl
@[simp] theorem State.pulseDiag_dt (w : Word) : (s.pulseDiag w).dt = s.dt := rfl
@[simp] theorem State.pulseDiag_st (w : Word) : (s.pulseDiag w).st = s.st := rfl
@[simp] theorem State.pulseDiag_status (w : Word) : (s.pulseDiag w).status = s.status := rfl
@[simp] theorem State.pulseDiag_awaiting (w : Word) : (s.pulseDiag w).awaiting = s.awaiting := rfl
@[simp] theorem State.pulseDiag_target (w : Word) : (s.pulseDiag w).target = s.target := rfl
@[simp] theorem State.pulseDiag_accInstr (w : Word) : (s.pulseDiag w).accInstr = s.accInstr := rfl
@[simp] theorem State.pulseDiag_accDelay (w : Word) : (s.pulseDiag w).accDelay = s.accDelay := rfl
@[simp] theorem State.pulseDiag_accSound (w : Word) : (s.pulseDiag w).accSound = s.accSound := rfl
@[simp] theorem State.pulseDiag_accRedraw (w : Word) : (s.pulseDiag w).accRedraw = s.accRedraw := rfl
@[simp] theorem State.pulseDiag_fb (w : Word) : (s.pulseDiag w).fb = s.fb := rfl
@[simp] theorem State.pulseDiag_dirty (w : Word) : (s.pulseDiag w).dirty = s.dirty := rfl
@[simp] theorem State.pulseDiag_mem (w : Word) : (s.pulseDiag w).mem = s.mem := rfl
@[simp] theorem State.pulseDiag_progEnd (w : Word) : (s.pulseDiag w).progEnd = s.progEnd := rfl
@[simp] theorem State.pulseDiag_cfg (w : Word) : (s.pulseDiag w).cfg = s.cfg := rfl
@[simp] theorem State.pulseDiag_inputs (w : Word) : (s.pulseDiag w).inputs = s.inputs := rfl
@[simp] theorem State.pulseDiag_frames (w : Word) : (s.pulseDiag w).frames = s.frames := rfl
@[simp] theorem State.pulseDiag_diag (w : Word) : (s.pulseDiag w).diag = some w := rfl
@[simp] theorem State.pulseDiag_render (w : Word) : (s.pulseDiag w).render = s.render := rfl

/-! ### pulseDiagIf -/

@[simp] theorem State.pulseDiagIf_v (c : Bool) (w : Word) : (s.pulseDiagIf c w).v = s.v := rfl
@[simp] theorem State.pulseDiagIf_pc (c : Bool) (w : Word) : (s.pulseDiagIf c w).pc = s.pc := rfl
@[simp] theorem State.pulseDiagIf_i (c : Bool) (w : Word) : (s.pulseDiagIf c w).i = s.i := rfl
@[simp] theorem State.pulseDiagIf_sp (c : Bool) (w : Word) : (s.pulseDiagIf c w).sp = s.sp := rfl
@[simp] theorem State.pulseDiagIf_stack (c : Bool) (w : Word) : (s.pulseDiagIf c w).stack = s.stack := rfl
@[simp] theorem State.pulseDiagIf_dt (c : Bool) (w : Word) : (s.pulseDiagIf c w).dt = s.dt := rfl
@[simp] theorem State.pulseDiagIf_st (c : Bool) (w : Word) : (s.pulseDiagIf c w).st = s.st := rfl
@[simp] theorem State.pulseDiagIf_status (c : Bool) (w : Word) : (s.pulseDiagIf c w).status = s.status := rfl
@[simp] theorem State.pulseDiagIf_awaiting (c : Bool) (w : Word) : (s.pulseDiagIf c w).awaiting = s.awaiting := rfl
@[simp] theorem State.pulseDiagIf_target (c : Bool) (w : Word) : (s.pulseDiagIf c w).target = s.target := rfl
@[simp] theorem State.pulseDiagIf_accInstr (c : Bool) (w : Word) : (s.pulseDiagIf c w).accInstr = s.accInstr := rfl
@[simp] theorem State.pulseDiagIf_accDelay (c : Bool) (w : Word) : (s.pulseDiagIf c w).accDelay = s.accDelay := rfl
@[simp] theorem State.pulseDiagIf_accSound (c : Bool) (w : Word) : (s.pulseDiagIf c w).accSound = s.accSound := rfl
@[simp] theorem State.pulseDiagIf_accRedraw (c : Bool) (w : Word) : (s.pulseDiagIf c w).accRedraw = s.accRedraw := rfl
@[simp] theorem State.pulseDiagIf_fb (c : Bool) (w : Word) : (s.pulseDiagIf c w).fb = s.fb := rfl
@[simp] theorem State.pulseDiagIf_dirty (c : Bool) (w : Word) : (s.pulseDiagIf c w).dirty = s.dirty := rfl
@[simp] theorem State.pulseDiagIf_mem (c : Bool) (w : Word) : (s.pulseDiagIf c w).mem = s.mem := rfl
@[simp] theorem State.pulseDiagIf_progEnd (c : Bool) (w : Word) : (s.pulseDiagIf c w).progEnd = s.progEnd := rfl
@[simp] theorem State.pulseDiagIf_cfg (c : Bool) (w : Word) : (s.pulseDiagIf c w).cfg = s.cfg := rfl
@[simp] theorem State.pulseDiagIf_inputs (c : Bool) (w : Word) : (s.pulseDiagIf c w).inputs = s.inputs := rfl
@[simp] theorem State.pulseDiagIf_frames (c : Bool) (w : Word) : (s.pulseDiagIf c w).frames = s.frames := rfl
@[simp] theorem State.pulseDiagIf_diag (c : Bool) (w : Word) : (s.pulseDiagIf c w).diag = if c then some w else s.diag := rfl
@[simp] theorem State.pulseDiagIf_render (c : Bool) (w : Word) : (s.pulseDiagIf c w).render = s.render := rfl

/-! ### clearPulses -/

@[simp] theorem State.clearPulses_v : (s.clearPulses).v = s.v := rfl
@[simp] theorem State.clearPulses_pc : (s.clearPulses).pc = s.pc := rfl
@[simp] theorem State.clearPulses_i : (s.clearPulses).i = s.i := rfl
@[simp] theorem State.clearPulses_sp : (s.clearPulses).sp = s.sp := rfl
@[simp] theorem State.clearPulses_stack : (s.clearPulses).stack = s.stack := rfl
@[simp] theorem State.clearPulses_dt : (s.clearPulses).dt = s.dt := rfl
@[simp] theorem State.clearPulses_st : (s.clearPulses).st = s.st := rfl
@[simp] theorem State.clearPulses_status : (s.clearPulses).status = s.status := rfl
@[simp] theorem State.clearPulses_awaiting : (s.clearPulses).awaiting = s.awaiting := rfl
@[simp] theorem State.clearPulses_target : (s.clearPulses).target = s.target := rfl
@[simp] theorem State.clearPulses_accInstr : (s.clearPulses).accInstr = s.accInstr := rfl
@[simp] theorem State.clearPulses_accDelay : (s.clearPulses).accDelay = s.accDelay := rfl
@[simp] theorem State.clearPulses_accSound : (s.clearPulses).accSound = s.accSound := rfl
@[simp] theorem State.clearPulses_accRedraw : (s.clearPulses).accRedraw = s.accRedraw := rfl
@[simp] theorem State.clearPulses_fb : (s.clearPulses).fb = s.fb := rfl
@[simp] theorem State.clearPulses_dirty : (s.clearPulses).dirty = s.dirty := rfl
@[simp] theorem State.clearPulses_mem : (s.clearPulses).mem = s.mem := rfl
@[simp] theorem State.clearPulses_progEnd : (s.clearPulses).progEnd = s.progEnd := rfl
@[simp] theorem State.clearPulses_cfg : (s.clearPulses).cfg = s.cfg := rfl
@[simp] theorem State.clearPulses_inputs : (s.clearPulses).inputs = s.inputs := rfl
@[simp] theorem State.clearPulses_frames : (s.clearPulses).frames = s.frames := rfl
@[simp] theorem State.clearPulses_diag : (s.clearPulses).diag = none := rfl
@[simp] theorem State.clearPulses_render : (s.clearPulses).render = false := rfl

/-! ### clearDisplay -/

@[simp] theorem State.clearDisplay_v : (s.clearDisplay).v = s.v := rfl
@[simp] theorem State.clearDisplay_pc : (s.clearDisplay).pc = s.pc := rfl
@[simp] theorem State.clearDisplay_i : (s.clearDisplay).i = s.i := rfl
@[simp] theorem State.clearDisplay_sp : (s.clearDisplay).sp = s.sp := rfl
@[simp] theorem State.clearDisplay_stack : (s.clearDisplay).stack = s.stack := rfl
@[simp] theorem State.clearDisplay_dt : (s.clearDisplay).dt = s.dt := rfl
@[simp] theorem State.clearDisplay_st : (s.clearDisplay).st = s.st := rfl
@[simp] theorem State.clearDisplay_status : (s.clearDisplay).status = s.status := rfl
@[simp] theorem State.clearDisplay_awaiting : (s.clearDisplay).awaiting = s.awaiting := rfl
@[simp] theorem State.clearDisplay_target : (s.clearDisplay).target = s.target := rfl
@[simp] theorem State.clearDisplay_accInstr : (s.clearDisplay).accInstr = s.accInstr := rfl
@[simp] theorem State.clearDisplay_accDelay : (s.clearDisplay).accDelay = s.accDelay := rfl
@[simp] theorem State.clearDisplay_accSound : (s.clearDisplay).accSound = s.accSound := rfl
@[simp] theorem State.clearDisplay_accRedraw : (s.clearDisplay).accRedraw = s.accRedraw := rfl
@[simp] theorem State.clearDisplay_fb : (s.clearDisplay).fb = Display.blank := rfl
@[simp] theorem State.clearDisplay_dirty : (s.clearDisplay).dirty = (s.dirty || s.fb.anySet) := rfl
@[simp] theorem State.clearDisplay_mem : (s.clearDisplay).mem = s.mem := rfl
@[simp] theorem State.clearDisplay_progEnd : (s.clearDisplay).progEnd = s.progEnd := rfl
@[simp] theorem State.clearDisplay_cfg : (s.clearDisplay).cfg = s.cfg := rfl
@[simp] theorem State.clearDisplay_inputs : (s.clearDisplay).inputs = s.inputs := rfl
@[simp] theorem State.clearDisplay_frames : (s.clearDisplay).frames = s.frames := rfl
@[simp] theorem State.clearDisplay_diag : (s.clearDisplay).diag = s.diag := rfl
@[simp] theorem State.clearDisplay_render : (s.clearDisplay).render = s.render := rfl

/-! ### showCanvas -/

@[simp] theorem State.showCanvas_v (c : Canvas) : (s.showCanvas c).v = s.v := rfl
@[simp] theorem State.showCanvas_pc (c : Canvas) : (s.showCanvas c).pc = s.pc := rfl
@[simp] theorem State.showCanvas_i (c : Canvas) : (s.showCanvas c).i = s.i := rfl
@[simp] theorem State.showCanvas_sp (c : Canvas) : (s.showCanvas c).sp = s.sp := rfl
@[simp] theorem State.showCanvas_stack (c : Canvas) : (s.showCanvas c).stack = s.stack := rfl
@[simp] theorem State.showCanvas_dt (c : Canvas) : (s.showCanvas c).dt = s.dt := rfl
@[simp] theorem State.showCanvas_st (c : Canvas) : (s.showCanvas c).st = s.st := rfl
@[simp] theorem State.showCanvas_status (c : Canvas) : (s.showCanvas c).status = s.status := rfl
@[simp] theorem State.showCanvas_awaiting (c : Canvas) : (s.showCanvas c).awaiting = s.awaiting := rfl
@[simp] theorem State.showCanvas_target (c : Canvas) : (s.showCanvas c).target = s.target := rfl
@[simp] theorem State.showCanvas_accInstr (c : Canvas) : (s.showCanvas c).accInstr = s.accInstr := rfl
@[simp] theorem State.showCanvas_accDelay (c : Canvas) : (s.showCanvas c).accDelay = s.accDelay := rfl
@[simp] theorem State.showCanvas_accSound (c : Canvas) : (s.showCanvas c).accSound = s.accSound := rfl
@[simp] theorem State.showCanvas_accRedraw (c : Canvas) : (s.showCanvas c).accRedraw = s.accRedraw := rfl
@[simp] theorem State.showCanvas_fb (c : Canvas) : (s.showCanvas c).fb = c.fb := rfl
@[simp] theorem State.showCanvas_dirty (c : Canvas) : (s.showCanvas c).dirty = (s.dirty || c.toggled) := rfl
@[simp] theorem State.showCanvas_mem (c : Canvas) : (s.showCanvas c).mem = s.mem := rfl
@[simp] theorem State.showCanvas_progEnd (c : Canvas) : (s.showCanvas c).progEnd = s.progEnd := rfl
@[simp] theorem State.showCanvas_cfg (c : Canvas) : (s.showCanvas c).cfg = s.cfg := rfl
@[simp] theorem State.showCanvas_inputs (c : Canvas) : (s.showCanvas c).inputs = s.inputs := rfl
@[simp] theorem State.showCanvas_frames (c : Canvas) : (s.showCanvas c).frames = s.frames := rfl
@[simp] theorem State.showCanvas_diag (c : Canvas) : (s.showCanvas c).diag = s.diag := rfl
@[simp] theorem State.showCanvas_render (c : Canvas) : (s.showCanvas c).render = s.render := rfl

/-! ### loadDelay -/

@[simp] theorem State.loadDelay_v (b : Byte) : (s.loadDelay b).v = s.v := rfl
@[simp] theorem State.loadDelay_pc (b : Byte) : (s.loadDelay b).pc = s.pc := rfl
@[simp] theorem State.loadDelay_i (b : Byte) : (s.loadDelay b).i = s.i := rfl
@[simp] theorem State.loadDelay_sp (b : Byte) : (s.loadDelay b).sp = s.sp := rfl
@[simp] theorem State.loadDelay_stack (b : Byte) : (s.loadDelay b).stack = s.stack := rfl
@[simp] theorem State.loadDelay_dt (b : Byte) : (s.loadDelay b).dt = b := rfl
@[simp] theorem State.loadDelay_st (b : Byte) : (s.loadDelay b).st = s.st := rfl
@[simp] theorem State.loadDelay_status (b : Byte) : (s.loadDelay b).status = s.status := rfl
@[simp] theorem State.loadDelay_awaiting (b : Byte) : (s.loadDelay b).awaiting = s.awaiting := rfl
@[simp] theorem State.loadDelay_target (b : Byte) : (s.loadDelay b).target = s.target := rfl
@[simp] theorem State.loadDelay_accInstr (b : Byte) : (s.loadDelay b).accInstr = s.accInstr := rfl
@[simp] theorem State.loadDelay_accDelay (b : Byte) : (s.loadDelay b).accDelay = 0 := rfl
@[simp] theorem State.loadDelay_accSound (b : Byte) : (s.loadDelay b).accSound = s.accSound := rfl
@[simp] theorem State.loadDelay_accRedraw (b : Byte) : (s.loadDelay b).accRedraw = s.accRedraw := rfl
@[simp] theorem State.loadDelay_fb (b : Byte) : (s.loadDelay b).fb = s.fb := rfl
@[simp] theorem State.loadDelay_dirty (b : Byte) : (s.loadDelay b).dirty = s.dirty := rfl
@[simp] theorem State.loadDelay_mem (b : Byte) : (s.loadDelay b).mem = s.mem := rfl
@[simp] theorem State.loadDelay_progEnd (b : Byte) : (s.loadDelay b).progEnd = s.progEnd := rfl
@[simp] theorem State.loadDelay_cfg (b : Byte) : (s.loadDelay b).cfg = s.cfg := rfl
@[simp] theorem State.loadDelay_inputs (b : Byte) : (s.loadDelay b).inputs = s.inputs := rfl
@[simp] theorem State.loadDelay_frames (b : Byte) : (s.loadDelay b).frames = s.frames := rfl
@[simp] theorem State.loadDelay_diag (b : Byte) : (s.loadDelay b).diag = s.diag := rfl
@[simp] theorem State.loadDelay_render (b : Byte) : (s.loadDelay b).render = s.render := rfl

/-! ### loadSound -/

@[simp] theorem State.loadSound_v (b : Byte) : (s.loadSound b).v = s.v := rfl
@[simp] theorem State.loadSound_pc (b : Byte) : (s.loadSound b).pc = s.pc := rfl
@[simp] theorem State.loadSound_i (b : Byte) : (s.loadSound b).i = s.i := rfl
@[simp] theorem State.loadSound_sp (b : Byte) : (s.loadSound b).sp = s.sp := rfl
@[simp] theorem State.loadSound_stack (b : Byte) : (s.loadSound b).stack = s.stack := rfl
@[simp] theorem State.loadSound_dt (b : Byte) : (s.loadSound b).dt = s.dt := rfl
@[simp] theorem State.loadSound_st (b : Byte) : (s.loadSound b).st = b := rfl
@[simp] theorem State.loadSound_status (b : Byte) : (s.loadSound b).status = s.status := rfl
@[simp] theorem State.loadSound_awaiting (b : Byte) : (s.loadSound b).awaiting = s.awaiting := rfl
@[simp] theorem State.loadSound_target (b : Byte) : (s.loadSound b).target = s.target := rfl
@[simp] theorem State.loadSound_accInstr (b : Byte) : (s.loadSound b).accInstr = s.accInstr := rfl
@[simp] theorem State.loadSound_accDelay (b : Byte) : (s.loadSound b).accDelay = s.accDelay := rfl
@[simp] theorem State.loadSound_accSound (b : Byte) : (s.loadSound b).accSound = 0 := rfl
@[simp] theorem State.loadSound_accRedraw (b : Byte) : (s.loadSound b).accRedraw = s.accRedraw := rfl
@[simp] theorem State.loadSound_fb (b : Byte) : (s.loadSound b).fb = s.fb := rfl
@[simp] theorem State.loadSound_dirty (b : Byte) : (s.loadSound b).dirty = s.dirty := rfl
@[simp] theorem State.loadSound_mem (b : Byte) : (s.loadSound b).mem = s.mem := rfl
@[simp] theorem State.loadSound_progEnd (b : Byte) : (s.loadSound b).progEnd = s.progEnd := rfl
@[simp] theorem State.loadSound_cfg (b : Byte) : (s.loadSound b).cfg = s.cfg := rfl
@[simp] theorem State.loadSound_inputs (b : Byte) : (s.loadSound b).inputs = s.inputs := rfl
@[simp] theorem State.loadSound_frames (b : Byte) : (s.loadSound b).frames = s.frames := rfl
@[simp] theorem State.loadSound_diag (b : Byte) : (s.loadSound b).diag = s.diag := rfl
@[simp] theorem State.loadSound_render (b : Byte) : (s.loadSound b).render = s.render := rfl

/-! ### setI -/

@[simp] theorem State.setI_v (w : Word) : (s.setI w).v = s.v := rfl
@[simp] theorem State.setI_pc (w : Word) : (s.setI w).pc = s.pc := rfl
@[simp] theorem State.setI_i (w : Word) : (s.setI w).i = w := rfl
@[simp] theorem State.setI_sp (w : Word) : (s.setI w).sp = s.sp := rfl
@[simp] theorem State.setI_stack (w : Word) : (s.setI w).stack = s.stack := rfl
@[simp] theorem State.setI_dt (w : Word) : (s.setI w).dt = s.dt := rfl
@[simp] theorem State.setI_st (w : Word) : (s.setI w).st = s.st := rfl
@[simp] theorem State.setI_status (w : Word) : (s.setI w).status = s.status := rfl
@[simp] theorem State.setI_awaiting (w : Word) : (s.setI w).awaiting = s.awaiting := rfl
@[simp] theorem State.setI_target (w : Word) : (s.setI w).target = s.target := rfl
@[simp] theorem State.setI_accInstr (w : Word) : (s.setI w).accInstr = s.accInstr := rfl
@[simp] theorem State.setI_accDelay (w : Word) : (s.setI w).accDelay = s.accDelay := rfl
@[simp] theorem State.setI_accSound (w : Word) : (s.setI w).accSound = s.accSound := rfl
@[simp] theorem State.setI_accRedraw (w : Word) : (s.setI w).accRedraw = s.accRedraw := rfl
@[simp] theorem State.setI_fb (w : Word) : (s.setI w).fb = s.fb := rfl
@[simp] theorem State.setI_dirty (w : Word) : (s.setI w).dirty = s.dirty := rfl
@[simp] theorem State.setI_mem (w : Word) : (s.setI w).mem = s.mem := rfl
@[simp] theorem State.setI_progEnd (w : Word) : (s.setI w).progEnd = s.progEnd := rfl
@[simp] theorem State.setI_cfg (w : Word) : (s.setI w).cfg = s.cfg := rfl
@[simp] theorem State.setI_inputs (w : Word) : (s.setI w).inputs = s.inputs := rfl
@[simp] theorem State.setI_frames (w : Word) : (s.setI w).frames = s.frames := rfl
@[simp] theorem State.setI_diag (w : Word) : (s.setI w).diag = s.diag := rfl
@[simp] theorem State.setI_render (w : Word) : (s.setI w).render = s.render := rfl

/-! ### awaitKey -/

@[simp] theorem State.awaitKey_v (x : RegNum) : (s.awaitKey x).v = s.v := rfl
@[simp] theorem State.awaitKey_pc (x : RegNum) : (s.awaitKey x).pc = s.pc := rfl
@[simp] theorem State.awaitKey_i (x : RegNum) : (s.awaitKey x).i = s.i := rfl
@[simp] theorem State.awaitKey_sp (x : RegNum) : (s.awaitKey x).sp = s.sp := rfl
@[simp] theorem State.awaitKey_stack (x : RegNum) : (s.awaitKey x).stack = s.stack := rfl
@[simp] theorem State.awaitKey_dt (x : RegNum) : (s.awaitKey x).dt = s.dt := rfl
@[simp] theorem State.awaitKey_st (x : RegNum) : (s.awaitKey x).st = s.st := rfl
@[simp] theorem State.awaitKey_status (x : RegNum) : (s.awaitKey x).status = s.status := rfl
@[simp] theorem State.awaitKey_awaiting (x : RegNum) : (s.awaitKey x).awaiting = true := rfl
@[simp] theorem State.awaitKey_target (x : RegNum) : (s.awaitKey x).target = x := rfl
@[simp] theorem State.awaitKey_accInstr (x : RegNum) : (s.awaitKey x).accInstr = s.accInstr := rfl
@[simp] theorem State.awaitKey_accDelay (x : RegNum) : (s.awaitKey x).accDelay = s.accDelay := rfl
@[simp] theorem State.awaitKey_accSound (x : RegNum) : (s.awaitKey x).accSound = s.accSound := rfl
@[simp] theorem State.awaitKey_accRedraw (x : RegNum) : (s.awaitKey x).accRedraw = s.accRedraw := rfl
@[simp] theorem State.awaitKey_fb (x : RegNum) : (s.awaitKey x).fb = s.fb := rfl
@[simp] theorem State.awaitKey_dirty (x : RegNum) : (s.awaitKey x).dirty = s.dirty := rfl
@[simp] theorem State.awaitKey_mem (x : RegNum) : (s.awaitKey x).mem = s.mem := rfl
@[simp] theorem State.awaitKey_progEnd (x : RegNum) : (s.awaitKey x).progEnd = s.progEnd := rfl
@[simp] theorem State.awaitKey_cfg (x : RegNum) : (s.awaitKey x).cfg = s.cfg := rfl
@[simp] theorem State.awaitKey_inputs (x : RegNum) : (s.awaitKey x).inputs = s.inputs := rfl
@[simp] theorem State.awaitKey_frames (x : RegNum) : (s.awaitKey x).frames = s.frames := rfl
@[simp] theorem State.awaitKey_diag (x : RegNum) : (s.awaitKey x).diag = s.diag := rfl
@[simp] theorem State.awaitKey_render (x : RegNum) : (s.awaitKey x).render = s.render := rfl

/-! ### endFrame -/

@[simp] theorem State.endFrame_v : (s.endFrame).v = s.v := rfl
@[simp] theorem State.endFrame_pc : (s.endFrame).pc = s.pc := rfl
@[simp] theorem State.endFrame_i : (s.endFrame).i = s.i := rfl
@[simp] theorem State.endFrame_sp : (s.endFrame).sp = s.sp := rfl
@[simp] theorem State.endFrame_stack : (s.endFrame).stack = s.stack := rfl
@[simp] theorem State.endFrame_dt : (s.endFrame).dt = s.dt := rfl
@[simp] theorem State.endFrame_st : (s.endFrame).st = s.st := rfl
@[simp] theorem State.endFrame_status : (s.endFrame).status = s.status := rfl
@[simp] theorem State.endFrame_awaiting : (s.endFrame).awaiting = s.awaiting := rfl
@[simp] theorem State.endFrame_target : (s.endFrame).target = s.target := rfl
@[simp] theorem State.endFrame_accInstr : (s.endFrame).accInstr = s.accInstr := rfl
@[simp] theorem State.endFrame_accDelay : (s.endFrame).accDelay = s.accDelay := rfl
@[simp] theorem State.endFrame_accSound : (s.endFrame).accSound = s.accSound := rfl
@[simp] theorem State.endFrame_accRedraw : (s.endFrame).accRedraw = s.accRedraw := rfl
@[simp] theorem State.endFrame_fb : (s.endFrame).fb = s.fb := rfl
@[simp] theorem State.endFrame_dirty : (s.endFrame).dirty = s.dirty := rfl
@[simp] theorem State.endFrame_mem : (s.endFrame).mem = s.mem := rfl
@[simp] theorem State.endFrame_progEnd : (s.endFrame).progEnd = s.progEnd := rfl
@[simp] theorem State.endFrame_cfg : (s.endFrame).cfg = s.cfg := rfl
@[simp] theorem State.endFrame_inputs : (s.endFrame).inputs = s.inputs.tail := rfl
@[simp] theorem State.endFrame_frames : (s.endFrame).frames = s.frames + 1 := rfl
@[simp] theorem State.endFrame_diag : (s.endFrame).diag = s.diag := rfl
@[simp] theorem State.endFrame_render : (s.endFrame).render = s.render := rfl

end Sys2Proof.Machine
end

