-- ==== Sys2Proof/Laws/Ops.lean ====
section
/-! SUPPORT. What each shared operation with a condition or a loop leaves unchanged, one lemma a field,
and for each the lemma that says everything it can do. -/

namespace Sys2Proof.Machine

variable (s : State)

/-! ### raise -/

@[simp] theorem State.raise_v (e : Status) : (s.raise e).v = s.v := by
  unfold State.raise; split <;> rfl
@[simp] theorem State.raise_pc (e : Status) : (s.raise e).pc = s.pc := by
  unfold State.raise; split <;> rfl
@[simp] theorem State.raise_i (e : Status) : (s.raise e).i = s.i := by
  unfold State.raise; split <;> rfl
@[simp] theorem State.raise_sp (e : Status) : (s.raise e).sp = s.sp := by
  unfold State.raise; split <;> rfl
@[simp] theorem State.raise_stack (e : Status) : (s.raise e).stack = s.stack := by
  unfold State.raise; split <;> rfl
@[simp] theorem State.raise_dt (e : Status) : (s.raise e).dt = s.dt := by
  unfold State.raise; split <;> rfl
@[simp] theorem State.raise_st (e : Status) : (s.raise e).st = s.st := by
  unfold State.raise; split <;> rfl
@[simp] theorem State.raise_awaiting (e : Status) : (s.raise e).awaiting = s.awaiting := by
  unfold State.raise; split <;> rfl
@[simp] theorem State.raise_target (e : Status) : (s.raise e).target = s.target := by
  unfold State.raise; split <;> rfl
@[simp] theorem State.raise_accInstr (e : Status) : (s.raise e).accInstr = s.accInstr := by
  unfold State.raise; split <;> rfl
@[simp] theorem State.raise_accDelay (e : Status) : (s.raise e).accDelay = s.accDelay := by
  unfold State.raise; split <;> rfl
@[simp] theorem State.raise_accSound (e : Status) : (s.raise e).accSound = s.accSound := by
  unfold State.raise; split <;> rfl
@[simp] theorem State.raise_accRedraw (e : Status) : (s.raise e).accRedraw = s.accRedraw := by
  unfold State.raise; split <;> rfl
@[simp] theorem State.raise_fb (e : Status) : (s.raise e).fb = s.fb := by
  unfold State.raise; split <;> rfl
@[simp] theorem State.raise_dirty (e : Status) : (s.raise e).dirty = s.dirty := by
  unfold State.raise; split <;> rfl
@[simp] theorem State.raise_mem (e : Status) : (s.raise e).mem = s.mem := by
  unfold State.raise; split <;> rfl
@[simp] theorem State.raise_progEnd (e : Status) : (s.raise e).progEnd = s.progEnd := by
  unfold State.raise; split <;> rfl
@[simp] theorem State.raise_cfg (e : Status) : (s.raise e).cfg = s.cfg := by
  unfold State.raise; split <;> rfl
@[simp] theorem State.raise_inputs (e : Status) : (s.raise e).inputs = s.inputs := by
  unfold State.raise; split <;> rfl
@[simp] theorem State.raise_frames (e : Status) : (s.raise e).frames = s.frames := by
  unfold State.raise; split <;> rfl
@[simp] theorem State.raise_diag (e : Status) : (s.raise e).diag = s.diag := by
  unfold State.raise; split <;> rfl
@[simp] theorem State.raise_render (e : Status) : (s.raise e).render = s.render := by
  unfold State.raise; split <;> rfl

/-! ### boundsCheck -/

@[simp] theorem State.boundsCheck_v : (s.boundsCheck).v = s.v := by
  unfold State.boundsCheck; split <;> simp
@[simp] theorem State.boundsCheck_pc : (s.boundsCheck).pc = s.pc := by
  unfold State.boundsCheck; split <;> simp
@[simp] theorem State.boundsCheck_i : (s.boundsCheck).i = s.i := by
  unfold State.boundsCheck; split <;> simp
@[simp] theorem State.boundsCheck_sp : (s.boundsCheck).sp = s.sp := by
  unfold State.boundsCheck; split <;> simp
@[simp] theorem State.boundsCheck_stack : (s.boundsCheck).stack = s.stack := by
  unfold State.boundsCheck; split <;> simp
@[simp] theorem State.boundsCheck_dt : (s.boundsCheck).dt = s.dt := by
  unfold State.boundsCheck; split <;> simp
@[simp] theorem State.boundsCheck_st : (s.boundsCheck).st = s.st := by
  unfold State.boundsCheck; split <;> simp
@[simp] theorem State.boundsCheck_awaiting : (s.boundsCheck).awaiting = s.awaiting := by
  unfold State.boundsCheck; split <;> simp
@[simp] theorem State.boundsCheck_target : (s.boundsCheck).target = s.target := by
  unfold State.boundsCheck; split <;> simp
@[simp] theorem State.boundsCheck_accInstr : (s.boundsCheck).accInstr = s.accInstr := by
  unfold State.boundsCheck; split <;> simp
@[simp] theorem State.boundsCheck_accDelay : (s.boundsCheck).accDelay = s.accDelay := by
  unfold State.boundsCheck; split <;> simp
@[simp] theorem State.boundsCheck_accSound : (s.boundsCheck).accSound = s.accSound := by
  unfold State.boundsCheck; split <;> simp
@[simp] theorem State.boundsCheck_accRedraw : (s.boundsCheck).accRedraw = s.accRedraw := by
  unfold State.boundsCheck; split <;> simp
@[simp] theorem State.boundsCheck_fb : (s.boundsCheck).fb = s.fb := by
  unfold State.boundsCheck; split <;> simp
@[simp] theorem State.boundsCheck_dirty : (s.boundsCheck).dirty = s.dirty := by
  unfold State.boundsCheck; split <;> simp
@[simp] theorem State.boundsCheck_mem : (s.boundsCheck).mem = s.mem := by
  unfold State.boundsCheck; split <;> simp
@[simp] theorem State.boundsCheck_progEnd : (s.boundsCheck).progEnd = s.progEnd := by
  unfold State.boundsCheck; split <;> simp
@[simp] theorem State.boundsCheck_cfg : (s.boundsCheck).cfg = s.cfg := by
  unfold State.boundsCheck; split <;> simp
@[simp] theorem State.boundsCheck_inputs : (s.boundsCheck).inputs = s.inputs := by
  unfold State.boundsCheck; split <;> simp
@[simp] theorem State.boundsCheck_frames : (s.boundsCheck).frames = s.frames := by
  unfold State.boundsCheck; split <;> simp
@[simp] theorem State.boundsCheck_diag : (s.boundsCheck).diag = s.diag := by
  unfold State.boundsCheck; split <;> simp
@[simp] theorem State.boundsCheck_render : (s.boundsCheck).render = s.render := by
  unfold State.boundsCheck; split <;> simp

/-! ### pushAndJump -/

@[simp] theorem State.pushAndJump_v (w : Word) : (s.pushAndJump w).v = s.v := by
  unfold State.pushAndJump; split <;> simp
@[simp] theorem State.pushAndJump_i (w : Word) : (s.pushAndJump w).i = s.i := by
  unfold State.pushAndJump; split <;> simp
@[simp] theorem State.pushAndJump_dt (w : Word) : (s.pushAndJump w).dt = s.dt := by
  unfold State.pushAndJump; split <;> simp
@[simp] theorem State.pushAndJump_st (w : Word) : (s.pushAndJump w).st = s.st := by
  unfold State.pushAndJump; split <;> simp
@[simp] theorem State.pushAndJump_awaiting (w : Word) : (s.pushAndJump w).awaiting = s.awaiting := by
  unfold State.pushAndJump; split <;> simp
@[simp] theorem State.pushAndJump_target (w : Word) : (s.pushAndJump w).target = s.target := by
  unfold State.pushAndJump; split <;> simp
@[simp] theorem State.pushAndJump_accInstr (w : Word) : (s.pushAndJump w).accInstr = s.accInstr := by
  unfold State.pushAndJump; split <;> simp
@[simp] theorem State.pushAndJump_accDelay (w : Word) : (s.pushAndJump w).accDelay = s.accDelay := by
  unfold State.pushAndJump; split <;> simp
@[simp] theorem State.pushAndJump_accSound (w : Word) : (s.pushAndJump w).accSound = s.accSound := by
  unfold State.pushAndJump; split <;> simp
@[simp] theorem State.pushAndJump_accRedraw (w : Word) : (s.pushAndJump w).accRedraw = s.accRedraw := by
  unfold State.pushAndJump; split <;> simp
@[simp] theorem State.pushAndJump_fb (w : Word) : (s.pushAndJump w).fb = s.fb := by
  unfold State.pushAndJump; split <;> simp
@[simp] theorem State.pushAndJump_dirty (w : Word) : (s.pushAndJump w).dirty = s.dirty := by
  unfold State.pushAndJump; split <;> simp
@[simp] theorem State.pushAndJump_mem (w : Word) : (s.pushAndJump w).mem = s.mem := by
  unfold State.pushAndJump; split <;> simp
@[simp] theorem State.pushAndJump_progEnd (w : Word) : (s.pushAndJump w).progEnd = s.progEnd := by
  unfold State.pushAndJump; split <;> simp
@[simp] theorem State.pushAndJump_cfg (w : Word) : (s.pushAndJump w).cfg = s.cfg := by
  unfold State.pushAndJump; split <;> simp
@[simp] theorem State.pushAndJump_inputs (w : Word) : (s.pushAndJump w).inputs = s.inputs := by
  unfold State.pushAndJump; split <;> simp
@[simp] theorem State.pushAndJump_frames (w : Word) : (s.pushAndJump w).frames = s.frames := by
  unfold State.pushAndJump; split <;> simp
@[simp] theorem State.pushAndJump_diag (w : Word) : (s.pushAndJump w).diag = s.diag := by
  unfold State.pushAndJump; split <;> simp
@[simp] theorem State.pushAndJump_render (w : Word) : (s.pushAndJump w).render = s.render := by
  unfold State.pushAndJump; split <;> simp

/-! ### popAndReturn -/

@[simp] theorem State.popAndReturn_v : (s.popAndReturn).v = s.v := by
  unfold State.popAndReturn; split <;> simp
@[simp] theorem State.popAndReturn_i : (s.popAndReturn).i = s.i := by
  unfold State.popAndReturn; split <;> simp
@[simp] theorem State.popAndReturn_stack : (s.popAndReturn).stack = s.stack := by
  unfold State.popAndReturn; split <;> simp
@[simp] theorem State.popAndReturn_dt : (s.popAndReturn).dt = s.dt := by
  unfold State.popAndReturn; split <;> simp
@[simp] theorem State.popAndReturn_st : (s.popAndReturn).st = s.st := by
  unfold State.popAndReturn; split <;> simp
@[simp] theorem State.popAndReturn_awaiting : (s.popAndReturn).awaiting = s.awaiting := by
  unfold State.popAndReturn; split <;> simp
@[simp] theorem State.popAndReturn_target : (s.popAndReturn).target = s.target := by
  unfold State.popAndReturn; split <;> simp
@[simp] theorem State.popAndReturn_accInstr : (s.popAndReturn).accInstr = s.accInstr := by
  unfold State.popAndReturn; split <;> simp
@[simp] theorem State.popAndReturn_accDelay : (s.popAndReturn).accDelay = s.accDelay := by
  unfold State.popAndReturn; split <;> simp
@[simp] theorem State.popAndReturn_accSound : (s.popAndReturn).accSound = s.accSound := by
  unfold State.popAndReturn; split <;> simp
@[simp] theorem State.popAndReturn_accRedraw : (s.popAndReturn).accRedraw = s.accRedraw := by
  unfold State.popAndReturn; split <;> simp
@[simp] theorem State.popAndReturn_fb : (s.popAndReturn).fb = s.fb := by
  unfold State.popAndReturn; split <;> simp
@[simp] theorem State.popAndReturn_dirty : (s.popAndReturn).dirty = s.dirty := by
  unfold State.popAndReturn; split <;> simp
@[simp] theorem State.popAndReturn_mem : (s.popAndReturn).mem = s.mem := by
  unfold State.popAndReturn; split <;> simp
@[simp] theorem State.popAndReturn_progEnd : (s.popAndReturn).progEnd = s.progEnd := by
  unfold State.popAndReturn; split <;> simp
@[simp] theorem State.popAndReturn_cfg : (s.popAndReturn).cfg = s.cfg := by
  unfold State.popAndReturn; split <;> simp
@[simp] theorem State.popAndReturn_inputs : (s.popAndReturn).inputs = s.inputs := by
  unfold State.popAndReturn; split <;> simp
@[simp] theorem State.popAndReturn_frames : (s.popAndReturn).frames = s.frames := by
  unfold State.popAndReturn; split <;> simp
@[simp] theorem State.popAndReturn_diag : (s.popAndReturn).diag = s.diag := by
  unfold State.popAndReturn; split <;> simp
@[simp] theorem State.popAndReturn_render : (s.popAndReturn).render = s.render := by
  unfold State.popAndReturn; split <;> simp

/-! ### deliverKey -/

@[simp] theorem State.deliverKey_pc : (s.deliverKey).pc = s.pc := by
  unfold State.deliverKey; split <;> (try split) <;> simp
@[simp] theorem State.deliverKey_i : (s.deliverKey).i = s.i := by
  unfold State.deliverKey; split <;> (try split) <;> simp
@[simp] theorem State.deliverKey_sp : (s.deliverKey).sp = s.sp := by
  unfold State.deliverKey; split <;> (try split) <;> simp
@[simp] theorem State.deliverKey_stack : (s.deliverKey).stack = s.stack := by
  unfold State.deliverKey; split <;> (try split) <;> simp
@[simp] theorem State.deliverKey_dt : (s.deliverKey).dt = s.dt := by
  unfold State.deliverKey; split <;> (try split) <;> simp
@[simp] theorem State.deliverKey_st : (s.deliverKey).st = s.st := by
  unfold State.deliverKey; split <;> (try split) <;> simp
@[simp] theorem State.deliverKey_status : (s.deliverKey).status = s.status := by
  unfold State.deliverKey; split <;> (try split) <;> simp
@[simp] theorem State.deliverKey_target : (s.deliverKey).target = s.target := by
  unfold State.deliverKey; split <;> (try split) <;> simp
@[simp] theorem State.deliverKey_accInstr : (s.deliverKey).accInstr = s.accInstr := by
  unfold State.deliverKey; split <;> (try split) <;> simp
@[simp] theorem State.deliverKey_accDelay : (s.deliverKey).accDelay = s.accDelay := by
  unfold State.deliverKey; split <;> (try split) <;> simp
@[simp] theorem State.deliverKey_accSound : (s.deliverKey).accSound = s.accSound := by
  unfold State.deliverKey; split <;> (try split) <;> simp
@[simp] theorem State.deliverKey_accRedraw : (s.deliverKey).accRedraw = s.accRedraw := by
  unfold State.deliverKey; split <;> (try split) <;> simp
@[simp] theorem State.deliverKey_fb : (s.deliverKey).fb = s.fb := by
  unfold State.deliverKey; split <;> (try split) <;> simp
@[simp] theorem State.deliverKey_dirty : (s.deliverKey).dirty = s.dirty := by
  unfold State.deliverKey; split <;> (try split) <;> simp
@[simp] theorem State.deliverKey_mem : (s.deliverKey).mem = s.mem := by
  unfold State.deliverKey; split <;> (try split) <;> simp
@[simp] theorem State.deliverKey_progEnd : (s.deliverKey).progEnd = s.progEnd := by
  unfold State.deliverKey; split <;> (try split) <;> simp
@[simp] theorem State.deliverKey_cfg : (s.deliverKey).cfg = s.cfg := by
  unfold State.deliverKey; split <;> (try split) <;> simp
@[simp] theorem State.deliverKey_inputs : (s.deliverKey).inputs = s.inputs := by
  unfold State.deliverKey; split <;> (try split) <;> simp
@[simp] theorem State.deliverKey_frames : (s.deliverKey).frames = s.frames := by
  unfold State.deliverKey; split <;> (try split) <;> simp
@[simp] theorem State.deliverKey_diag : (s.deliverKey).diag = s.diag := by
  unfold State.deliverKey; split <;> (try split) <;> simp
@[simp] theorem State.deliverKey_render : (s.deliverKey).render = s.render := by
  unfold State.deliverKey; split <;> (try split) <;> simp

/-! ### delayCountdown -/

@[simp] theorem State.delayCountdown_v : (s.delayCountdown).v = s.v := by
  unfold State.delayCountdown; split <;> rfl
@[simp] theorem State.delayCountdown_pc : (s.delayCountdown).pc = s.pc := by
  unfold State.delayCountdown; split <;> rfl
@[simp] theorem State.delayCountdown_i : (s.delayCountdown).i = s.i := by
  unfold State.delayCountdown; split <;> rfl
@[simp] theorem State.delayCountdown_sp : (s.delayCountdown).sp = s.sp := by
  unfold State.delayCountdown; split <;> rfl
@[simp] theorem State.delayCountdown_stack : (s.delayCountdown).stack = s.stack := by
  unfold State.delayCountdown; split <;> rfl
@[simp] theorem State.delayCountdown_st : (s.delayCountdown).st = s.st := by
  unfold State.delayCountdown; split <;> rfl
@[simp] theorem State.delayCountdown_status : (s.delayCountdown).status = s.status := by
  unfold State.delayCountdown; split <;> rfl
@[simp] theorem State.delayCountdown_awaiting : (s.delayCountdown).awaiting = s.awaiting := by
  unfold State.delayCountdown; split <;> rfl
@[simp] theorem State.delayCountdown_target : (s.delayCountdown).target = s.target := by
  unfold State.delayCountdown; split <;> rfl
@[simp] theorem State.delayCountdown_accInstr : (s.delayCountdown).accInstr = s.accInstr := by
  unfold State.delayCountdown; split <;> rfl
@[simp] theorem State.delayCountdown_accSound : (s.delayCountdown).accSound = s.accSound := by
  unfold State.delayCountdown; split <;> rfl
@[simp] theorem State.delayCountdown_accRedraw : (s.delayCountdown).accRedraw = s.accRedraw := by
  unfold State.delayCountdown; split <;> rfl
@[simp] theorem State.delayCountdown_fb : (s.delayCountdown).fb = s.fb := by
  unfold State.delayCountdown; split <;> rfl
@[simp] theorem State.delayCountdown_dirty : (s.delayCountdown).dirty = s.dirty := by
  unfold State.delayCountdown; split <;> rfl
@[simp] theorem State.delayCountdown_mem : (s.delayCountdown).mem = s.mem := by
  unfold State.delayCountdown; split <;> rfl
@[simp] theorem State.delayCountdown_progEnd : (s.delayCountdown).progEnd = s.progEnd := by
  unfold State.delayCountdown; split <;> rfl
@[simp] theorem State.delayCountdown_cfg : (s.delayCountdown).cfg = s.cfg := by
  unfold State.delayCountdown; split <;> rfl
@[simp] theorem State.delayCountdown_inputs : (s.delayCountdown).inputs = s.inputs := by
  unfold State.delayCountdown; split <;> rfl
@[simp] theorem State.delayCountdown_frames : (s.delayCountdown).frames = s.frames := by
  unfold State.delayCountdown; split <;> rfl
@[simp] theorem State.delayCountdown_diag : (s.delayCountdown).diag = s.diag := by
  unfold State.delayCountdown; split <;> rfl
@[simp] theorem State.delayCountdown_render : (s.delayCountdown).render = s.render := by
  unfold State.delayCountdown; split <;> rfl

/-! ### soundCountdown -/

@[simp] theorem State.soundCountdown_v : (s.soundCountdown).v = s.v := by
  unfold State.soundCountdown; split <;> rfl
@[simp] theorem State.soundCountdown_pc : (s.soundCountdown).pc = s.pc := by
  unfold State.soundCountdown; split <;> rfl
@[simp] theorem State.soundCountdown_i : (s.soundCountdown).i = s.i := by
  unfold State.soundCountdown; split <;> rfl
@[simp] theorem State.soundCountdown_sp : (s.soundCountdown).sp = s.sp := by
  unfold State.soundCountdown; split <;> rfl
@[simp] theorem State.soundCountdown_stack : (s.soundCountdown).stack = s.stack := by
  unfold State.soundCountdown; split <;> rfl
@[simp] theorem State.soundCountdown_dt : (s.soundCountdown).dt = s.dt := by
  unfold State.soundCountdown; split <;> rfl
@[simp] theorem State.soundCountdown_status : (s.soundCountdown).status = s.status := by
  unfold State.soundCountdown; split <;> rfl
@[simp] theorem State.soundCountdown_awaiting : (s.soundCountdown).awaiting = s.awaiting := by
  unfold State.soundCountdown; split <;> rfl
@[simp] theorem State.soundCountdown_target : (s.soundCountdown).target = s.target := by
  unfold State.soundCountdown; split <;> rfl
@[simp] theorem State.soundCountdown_accInstr : (s.soundCountdown).accInstr = s.accInstr := by
  unfold State.soundCountdown; split <;> rfl
@[simp] theorem State.soundCountdown_accDelay : (s.soundCountdown).accDelay = s.accDelay := by
  unfold State.soundCountdown; split <;> rfl
@[simp] theorem State.soundCountdown_accRedraw : (s.soundCountdown).accRedraw = s.accRedraw := by
  unfold State.soundCountdown; split <;> rfl
@[simp] theorem State.soundCountdown_fb : (s.soundCountdown).fb = s.fb := by
  unfold State.soundCountdown; split <;> rfl
@[simp] theorem State.soundCountdown_dirty : (s.soundCountdown).dirty = s.dirty := by
  unfold State.soundCountdown; split <;> rfl
@[simp] theorem State.soundCountdown_mem : (s.soundCountdown).mem = s.mem := by
  unfold State.soundCountdown; split <;> rfl
@[simp] theorem State.soundCountdown_progEnd : (s.soundCountdown).progEnd = s.progEnd := by
  unfold State.soundCountdown; split <;> rfl
@[simp] theorem State.soundCountdown_cfg : (s.soundCountdown).cfg = s.cfg := by
  unfold State.soundCountdown; split <;> rfl
@[simp] theorem State.soundCountdown_inputs : (s.soundCountdown).inputs = s.inputs := by
  unfold State.soundCountdown; split <;> rfl
@[simp] theorem State.soundCountdown_frames : (s.soundCountdown).frames = s.frames := by
  unfold State.soundCountdown; split <;> rfl
@[simp] theorem State.soundCountdown_diag : (s.soundCountdown).diag = s.diag := by
  unfold State.soundCountdown; split <;> rfl
@[simp] theorem State.soundCountdown_render : (s.soundCountdown).render = s.render := by
  unfold State.soundCountdown; split <;> rfl

/-! ### timerDecay -/

@[simp] theorem State.timerDecay_v : (s.timerDecay).v = s.v := by
  simp [State.timerDecay]
@[simp] theorem State.timerDecay_pc : (s.timerDecay).pc = s.pc := by
  simp [State.timerDecay]
@[simp] theorem State.timerDecay_i : (s.timerDecay).i = s.i := by
  simp [State.timerDecay]
@[simp] theorem State.timerDecay_sp : (s.timerDecay).sp = s.sp := by
  simp [State.timerDecay]
@[simp] theorem State.timerDecay_stack : (s.timerDecay).stack = s.stack := by
  simp [State.timerDecay]
@[simp] theorem State.timerDecay_status : (s.timerDecay).status = s.status := by
  simp [State.timerDecay]
@[simp] theorem State.timerDecay_awaiting : (s.timerDecay).awaiting = s.awaiting := by
  simp [State.timerDecay]
@[simp] theorem State.timerDecay_target : (s.timerDecay).target = s.target := by
  simp [State.timerDecay]
@[simp] theorem State.timerDecay_accInstr : (s.timerDecay).accInstr = s.accInstr := by
  simp [State.timerDecay]
@[simp] theorem State.timerDecay_accRedraw : (s.timerDecay).accRedraw = s.accRedraw := by
  simp [State.timerDecay]
@[simp] theorem State.timerDecay_fb : (s.timerDecay).fb = s.fb := by
  simp [State.timerDecay]
@[simp] theorem State.timerDecay_dirty : (s.timerDecay).dirty = s.dirty := by
  simp [State.timerDecay]
@[simp] theorem State.timerDecay_mem : (s.timerDecay).mem = s.mem := by
  simp [State.timerDecay]
@[simp] theorem State.timerDecay_progEnd : (s.timerDecay).progEnd = s.progEnd := by
  simp [State.timerDecay]
@[simp] theorem State.timerDecay_cfg : (s.timerDecay).cfg = s.cfg := by
  simp [State.timerDecay]
@[simp] theorem State.timerDecay_inputs : (s.timerDecay).inputs = s.inputs := by
  simp [State.timerDecay]
@[simp] theorem State.timerDecay_frames : (s.timerDecay).frames = s.frames := by
  simp [State.timerDecay]
@[simp] theorem State.timerDecay_diag : (s.timerDecay).diag = s.diag := by
  simp [State.timerDecay]
@[simp] theorem State.timerDecay_render : (s.timerDecay).render = s.render := by
  simp [State.timerDecay]

/-! ### redrawCadence -/

@[simp] theorem State.redrawCadence_v : (s.redrawCadence).v = s.v := by
  unfold State.redrawCadence; split <;> rfl
@[simp] theorem State.redrawCadence_pc : (s.redrawCadence).pc = s.pc := by
  unfold State.redrawCadence; split <;> rfl
@[simp] theorem State.redrawCadence_i : (s.redrawCadence).i = s.i := by
  unfold State.redrawCadence; split <;> rfl
@[simp] theorem State.redrawCadence_sp : (s.redrawCadence).sp = s.sp := by
  unfold State.redrawCadence; split <;> rfl
@[simp] theorem State.redrawCadence_stack : (s.redrawCadence).stack = s.stack := by
  unfold State.redrawCadence; split <;> rfl
@[simp] theorem State.redrawCadence_dt : (s.redrawCadence).dt = s.dt := by
  unfold State.redrawCadence; split <;> rfl
@[simp] theorem State.redrawCadence_st : (s.redrawCadence).st = s.st := by
  unfold State.redrawCadence; split <;> rfl
@[simp] theorem State.redrawCadence_status : (s.redrawCadence).status = s.status := by
  unfold State.redrawCadence; split <;> rfl
@[simp] theorem State.redrawCadence_awaiting : (s.redrawCadence).awaiting = s.awaiting := by
  unfold State.redrawCadence; split <;> rfl
@[simp] theorem State.redrawCadence_target : (s.redrawCadence).target = s.target := by
  unfold State.redrawCadence; split <;> rfl
@[simp] theorem State.redrawCadence_accInstr : (s.redrawCadence).accInstr = s.accInstr := by
  unfold State.redrawCadence; split <;> rfl
@[simp] theorem State.redrawCadence_accDelay : (s.redrawCadence).accDelay = s.accDelay := by
  unfold State.redrawCadence; split <;> rfl
@[simp] theorem State.redrawCadence_accSound : (s.redrawCadence).accSound = s.accSound := by
  unfold State.redrawCadence; split <;> rfl
@[simp] theorem State.redrawCadence_fb : (s.redrawCadence).fb = s.fb := by
  unfold State.redrawCadence; split <;> rfl
@[simp] theorem State.redrawCadence_mem : (s.redrawCadence).mem = s.mem := by
  unfold State.redrawCadence; split <;> rfl
@[simp] theorem State.redrawCadence_progEnd : (s.redrawCadence).progEnd = s.progEnd := by
  unfold State.redrawCadence; split <;> rfl
@[simp] theorem State.redrawCadence_cfg : (s.redrawCadence).cfg = s.cfg := by
  unfold State.redrawCadence; split <;> rfl
@[simp] theorem State.redrawCadence_inputs : (s.redrawCadence).inputs = s.inputs := by
  unfold State.redrawCadence; split <;> rfl
@[simp] theorem State.redrawCadence_frames : (s.redrawCadence).frames = s.frames := by
  unfold State.redrawCadence; split <;> rfl
@[simp] theorem State.redrawCadence_diag : (s.redrawCadence).diag = s.diag := by
  unfold State.redrawCadence; split <;> rfl

/-! ### writeBytes -/

@[simp] theorem State.writeBytes_v (a : Nat) (bs : List Byte) : (s.writeBytes a bs).v = s.v := by
  induction bs generalizing s a with
  | nil => rfl
  | cons b bs ih => simp [State.writeBytes, ih]
@[simp] theorem State.writeBytes_pc (a : Nat) (bs : List Byte) : (s.writeBytes a bs).pc = s.pc := by
  induction bs generalizing s a with
  | nil => rfl
  | cons b bs ih => simp [State.writeBytes, ih]
@[simp] theorem State.writeBytes_i (a : Nat) (bs : List Byte) : (s.writeBytes a bs).i = s.i := by
  induction bs generalizing s a with
  | nil => rfl
  | cons b bs ih => simp [State.writeBytes, ih]
@[simp] theorem State.writeBytes_sp (a : Nat) (bs : List Byte) : (s.writeBytes a bs).sp = s.sp := by
  induction bs generalizing s a with
  | nil => rfl
  | cons b bs ih => simp [State.writeBytes, ih]
@[simp] theorem State.writeBytes_stack (a : Nat) (bs : List Byte) : (s.writeBytes a bs).stack = s.stack := by
  induction bs generalizing s a with
  | nil => rfl
  | cons b bs ih => simp [State.writeBytes, ih]
@[simp] theorem State.writeBytes_dt (a : Nat) (bs : List Byte) : (s.writeBytes a bs).dt = s.dt := by
  induction bs generalizing s a with
  | nil => rfl
  | cons b bs ih => simp [State.writeBytes, ih]
@[simp] theorem State.writeBytes_st (a : Nat) (bs : List Byte) : (s.writeBytes a bs).st = s.st := by
  induction bs generalizing s a with
  | nil => rfl
  | cons b bs ih => simp [State.writeBytes, ih]
@[simp] theorem State.writeBytes_status (a : Nat) (bs : List Byte) : (s.writeBytes a bs).status = s.status := by
  induction bs generalizing s a with
  | nil => rfl
  | cons b bs ih => simp [State.writeBytes, ih]
@[simp] theorem State.writeBytes_awaiting (a : Nat) (bs : List Byte) : (s.writeBytes a bs).awaiting = s.awaiting := by
  induction bs generalizing s a with
  | nil => rfl
  | cons b bs ih => simp [State.writeBytes, ih]
@[simp] theorem State.writeBytes_target (a : Nat) (bs : List Byte) : (s.writeBytes a bs).target = s.target := by
  induction bs generalizing s a with
  | nil => rfl
  | cons b bs ih => simp [State.writeBytes, ih]
@[simp] theorem State.writeBytes_accInstr (a : Nat) (bs : List Byte) : (s.writeBytes a bs).accInstr = s.accInstr := by
  induction bs generalizing s a with
  | nil => rfl
  | cons b bs ih => simp [State.writeBytes, ih]
@[simp] theorem State.writeBytes_accDelay (a : Nat) (bs : List Byte) : (s.writeBytes a bs).accDelay = s.accDelay := by
  induction bs generalizing s a with
  | nil => rfl
  | cons b bs ih => simp [State.writeBytes, ih]
@[simp] theorem State.writeBytes_accSound (a : Nat) (bs : List Byte) : (s.writeBytes a bs).accSound = s.accSound := by
  induction bs generalizing s a with
  | nil => rfl
  | cons b bs ih => simp [State.writeBytes, ih]
@[simp] theorem State.writeBytes_accRedraw (a : Nat) (bs : List Byte) : (s.writeBytes a bs).accRedraw = s.accRedraw := by
  induction bs generalizing s a with
  | nil => rfl
  | cons b bs ih => simp [State.writeBytes, ih]
@[simp] theorem State.writeBytes_fb (a : Nat) (bs : List Byte) : (s.writeBytes a bs).fb = s.fb := by
  induction bs generalizing s a with
  | nil => rfl
  | cons b bs ih => simp [State.writeBytes, ih]
@[simp] theorem State.writeBytes_dirty (a : Nat) (bs : List Byte) : (s.writeBytes a bs).dirty = s.dirty := by
  induction bs generalizing s a with
  | nil => rfl
  | cons b bs ih => simp [State.writeBytes, ih]
@[simp] theorem State.writeBytes_progEnd (a : Nat) (bs : List Byte) : (s.writeBytes a bs).progEnd = s.progEnd := by
  induction bs generalizing s a with
  | nil => rfl
  | cons b bs ih => simp [State.writeBytes, ih]
@[simp] theorem State.writeBytes_cfg (a : Nat) (bs : List Byte) : (s.writeBytes a bs).cfg = s.cfg := by
  induction bs generalizing s a with
  | nil => rfl
  | cons b bs ih => simp [State.writeBytes, ih]
@[simp] theorem State.writeBytes_inputs (a : Nat) (bs : List Byte) : (s.writeBytes a bs).inputs = s.inputs := by
  induction bs generalizing s a with
  | nil => rfl
  | cons b bs ih => simp [State.writeBytes, ih]
@[simp] theorem State.writeBytes_frames (a : Nat) (bs : List Byte) : (s.writeBytes a bs).frames = s.frames := by
  induction bs generalizing s a with
  | nil => rfl
  | cons b bs ih => simp [State.writeBytes, ih]
@[simp] theorem State.writeBytes_diag (a : Nat) (bs : List Byte) : (s.writeBytes a bs).diag = s.diag := by
  induction bs generalizing s a with
  | nil => rfl
  | cons b bs ih => simp [State.writeBytes, ih]
@[simp] theorem State.writeBytes_render (a : Nat) (bs : List Byte) : (s.writeBytes a bs).render = s.render := by
  induction bs generalizing s a with
  | nil => rfl
  | cons b bs ih => simp [State.writeBytes, ih]

/-! ### setRegsFrom -/

@[simp] theorem State.setRegsFrom_pc (k : Nat) (bs : List Byte) : (s.setRegsFrom k bs).pc = s.pc := by
  induction bs generalizing s k with
  | nil => rfl
  | cons b bs ih => simp [State.setRegsFrom, ih]
@[simp] theorem State.setRegsFrom_i (k : Nat) (bs : List Byte) : (s.setRegsFrom k bs).i = s.i := by
  induction bs generalizing s k with
  | nil => rfl
  | cons b bs ih => simp [State.setRegsFrom, ih]
@[simp] theorem State.setRegsFrom_sp (k : Nat) (bs : List Byte) : (s.setRegsFrom k bs).sp = s.sp := by
  induction bs generalizing s k with
  | nil => rfl
  | cons b bs ih => simp [State.setRegsFrom, ih]
@[simp] theorem State.setRegsFrom_stack (k : Nat) (bs : List Byte) : (s.setRegsFrom k bs).stack = s.stack := by
  induction bs generalizing s k with
  | nil => rfl
  | cons b bs ih => simp [State.setRegsFrom, ih]
@[simp] theorem State.setRegsFrom_dt (k : Nat) (bs : List Byte) : (s.setRegsFrom k bs).dt = s.dt := by
  induction bs generalizing s k with
  | nil => rfl
  | cons b bs ih => simp [State.setRegsFrom, ih]
@[simp] theorem State.setRegsFrom_st (k : Nat) (bs : List Byte) : (s.setRegsFrom k bs).st = s.st := by
  induction bs generalizing s k with
  | nil => rfl
  | cons b bs ih => simp [State.setRegsFrom, ih]
@[simp] theorem State.setRegsFrom_status (k : Nat) (bs : List Byte) : (s.setRegsFrom k bs).status = s.status := by
  induction bs generalizing s k with
  | nil => rfl
  | cons b bs ih => simp [State.setRegsFrom, ih]
@[simp] theorem State.setRegsFrom_awaiting (k : Nat) (bs : List Byte) : (s.setRegsFrom k bs).awaiting = s.awaiting := by
  induction bs generalizing s k with
  | nil => rfl
  | cons b bs ih => simp [State.setRegsFrom, ih]
@[simp] theorem State.setRegsFrom_target (k : Nat) (bs : List Byte) : (s.setRegsFrom k bs).target = s.target := by
  induction bs generalizing s k with
  | nil => rfl
  | cons b bs ih => simp [State.setRegsFrom, ih]
@[simp] theorem State.setRegsFrom_accInstr (k : Nat) (bs : List Byte) : (s.setRegsFrom k bs).accInstr = s.accInstr := by
  induction bs generalizing s k with
  | nil => rfl
  | cons b bs ih => simp [State.setRegsFrom, ih]
@[simp] theorem State.setRegsFrom_accDelay (k : Nat) (bs : List Byte) : (s.setRegsFrom k bs).accDelay = s.accDelay := by
  induction bs generalizing s k with
  | nil => rfl
  | cons b bs ih => simp [State.setRegsFrom, ih]
@[simp] theorem State.setRegsFrom_accSound (k : Nat) (bs : List Byte) : (s.setRegsFrom k bs).accSound = s.accSound := by
  induction bs generalizing s k with
  | nil => rfl
  | cons b bs ih => simp [State.setRegsFrom, ih]
@[simp] theorem State.setRegsFrom_accRedraw (k : Nat) (bs : List Byte) : (s.setRegsFrom k bs).accRedraw = s.accRedraw := by
  induction bs generalizing s k with
  | nil => rfl
  | cons b bs ih => simp [State.setRegsFrom, ih]
@[simp] theorem State.setRegsFrom_fb (k : Nat) (bs : List Byte) : (s.setRegsFrom k bs).fb = s.fb := by
  induction bs generalizing s k with
  | nil => rfl
  | cons b bs ih => simp [State.setRegsFrom, ih]
@[simp] theorem State.setRegsFrom_dirty (k : Nat) (bs : List Byte) : (s.setRegsFrom k bs).dirty = s.dirty := by
  induction bs generalizing s k with
  | nil => rfl
  | cons b bs ih => simp [State.setRegsFrom, ih]
@[simp] theorem State.setRegsFrom_mem (k : Nat) (bs : List Byte) : (s.setRegsFrom k bs).mem = s.mem := by
  induction bs generalizing s k with
  | nil => rfl
  | cons b bs ih => simp [State.setRegsFrom, ih]
@[simp] theorem State.setRegsFrom_progEnd (k : Nat) (bs : List Byte) : (s.setRegsFrom k bs).progEnd = s.progEnd := by
  induction bs generalizing s k with
  | nil => rfl
  | cons b bs ih => simp [State.setRegsFrom, ih]
@[simp] theorem State.setRegsFrom_cfg (k : Nat) (bs : List Byte) : (s.setRegsFrom k bs).cfg = s.cfg := by
  induction bs generalizing s k with
  | nil => rfl
  | cons b bs ih => simp [State.setRegsFrom, ih]
@[simp] theorem State.setRegsFrom_inputs (k : Nat) (bs : List Byte) : (s.setRegsFrom k bs).inputs = s.inputs := by
  induction bs generalizing s k with
  | nil => rfl
  | cons b bs ih => simp [State.setRegsFrom, ih]
@[simp] theorem State.setRegsFrom_frames (k : Nat) (bs : List Byte) : (s.setRegsFrom k bs).frames = s.frames := by
  induction bs generalizing s k with
  | nil => rfl
  | cons b bs ih => simp [State.setRegsFrom, ih]
@[simp] theorem State.setRegsFrom_diag (k : Nat) (bs : List Byte) : (s.setRegsFrom k bs).diag = s.diag := by
  induction bs generalizing s k with
  | nil => rfl
  | cons b bs ih => simp [State.setRegsFrom, ih]
@[simp] theorem State.setRegsFrom_render (k : Nat) (bs : List Byte) : (s.setRegsFrom k bs).render = s.render := by
  induction bs generalizing s k with
  | nil => rfl
  | cons b bs ih => simp [State.setRegsFrom, ih]

/-! ### What each operation can do -/

theorem State.raise_of_running {e : Status} (h : s.status = .none) :
    s.raise e = { s with status := e } := by simp [State.raise, h]

theorem State.raise_of_halted {e : Status} (h : s.status ≠ .none) : s.raise e = s := by
  simp [State.raise, h]

@[simp] theorem State.raise_status (e : Status) :
    (s.raise e).status = if s.status = .none then e else s.status := by
  unfold State.raise; split <;> simp [*]

/-- CALL changes the status only on a full stack. -/
@[simp] theorem State.pushAndJump_status (w : Word) :
    (s.pushAndJump w).status = if s.sp.val < 16 then s.status else (s.raise .stackOverflow).status := by
  unfold State.pushAndJump; split <;> rfl

/-- RET changes the status only on an empty stack. -/
@[simp] theorem State.popAndReturn_status :
    s.popAndReturn.status = if 0 < s.sp.val then s.status else (s.raise .stackUnderflow).status := by
  unfold State.popAndReturn; split <;> rfl

theorem State.boundsCheck_of_inside (h : s.pcOutside = false) : s.boundsCheck = s := by
  simp [State.boundsCheck, h]

theorem State.boundsCheck_of_halted (h : s.status ≠ .none) : s.boundsCheck = s := by
  unfold State.boundsCheck; split
  · exact s.raise_of_halted h
  · rfl

theorem State.boundsCheck_of_outside (h : s.pcOutside = true) (hn : s.status = .none) :
    s.boundsCheck = { s with status := .outOfBounds } := by
  simp [State.boundsCheck, h, s.raise_of_running hn]

/-- What the bounds check can do: nothing, or halt a running machine whose `PC` is outside. -/
theorem State.boundsCheck_cases :
    s.boundsCheck = s ∨
    (s.status = .none ∧ s.pcOutside = true ∧ s.boundsCheck = { s with status := .outOfBounds }) := by
  by_cases h : s.pcOutside = true
  · by_cases hn : s.status = .none
    · exact .inr ⟨hn, h, s.boundsCheck_of_outside h hn⟩
    · exact .inl (s.boundsCheck_of_halted hn)
  · exact .inl (s.boundsCheck_of_inside (by simpa using h))

theorem State.pushAndJump_of_room (w : Word) (h : s.sp.val < 16) :
    s.pushAndJump w =
      { s with stack := s.stack.set s.sp.val s.pc, sp := ⟨s.sp.val + 1, by omega⟩, pc := w } := by
  simp [State.pushAndJump, h]

theorem State.pushAndJump_of_full (w : Word) (h : s.sp.val = 16) :
    s.pushAndJump w = s.raise .stackOverflow := by simp [State.pushAndJump, h]

theorem State.popAndReturn_of_entry (h : 0 < s.sp.val) :
    s.popAndReturn =
      { s with
          sp := ⟨s.sp.val - 1, by omega⟩, pc := (s.stack[s.sp.val - 1]'(by omega)) + 2 } := by
  simp [State.popAndReturn, h]

theorem State.popAndReturn_of_empty (h : s.sp.val = 0) :
    s.popAndReturn = s.raise .stackUnderflow := by simp [State.popAndReturn, h]

/-- What key delivery can do: nothing, or write a code 0 to 15 to `V[TARGET]` and end the wait. -/
theorem State.deliverKey_cases :
    (s.deliverKey = s ∧ ∀ k, s.frameInput.key = some k → 15 < k.toNat) ∨
    ∃ k, s.frameInput.key = some k ∧ k.toNat ≤ 15 ∧
      s.deliverKey = { s.setReg s.target k with awaiting := false } := by
  unfold State.deliverKey
  cases hk : s.frameInput.key with
  | none => exact .inl ⟨rfl, by simp⟩
  | some k =>
    by_cases h : k.toNat ≤ 15
    · exact .inr ⟨k, rfl, h, by simp [h]⟩
    · exact .inl ⟨by simp [h], by simpa using Nat.lt_of_not_le h⟩

/-- The inputs of a frame depend on the host's list and the frame's number alone. -/
theorem State.frameInput_congr {s t : State} (hi : t.inputs = s.inputs) (hf : t.frames = s.frames) :
    t.frameInput = s.frameInput := by unfold State.frameInput; rw [hi, hf]

@[simp] theorem decrement_toNat (b : Byte) : (decrement b).toNat = b.toNat - 1 := by
  unfold decrement
  split
  · next h => simp [h]
  · rename_i h
    have : b.toNat ≠ 0 := fun hb => h (BitVec.eq_of_toNat_eq (by simpa using hb))
    have := b.isLt
    have h1 : (1 : Byte).toNat = 1 := rfl
    rw [BitVec.toNat_sub, h1]
    omega

/-- A read of a register depends on the register file alone. -/
theorem State.reg_congr {s t : State} (h : t.v = s.v) (x : RegNum) : t.reg x = s.reg x := by
  simp [State.reg, h]

/-- A run of writes changes the memory alone. -/
theorem State.writeBytes_eq (a : Nat) (bs : List Byte) :
    s.writeBytes a bs = { s with mem := (s.writeBytes a bs).mem } := by
  induction bs generalizing s a with
  | nil => rfl
  | cons b bs ih => rw [State.writeBytes, ih]; rfl

/-- A run of register writes changes the register file alone. -/
theorem State.setRegsFrom_eq (k : Nat) (bs : List Byte) :
    s.setRegsFrom k bs = { s with v := (s.setRegsFrom k bs).v } := by
  induction bs generalizing s k with
  | nil => rfl
  | cons b bs ih => rw [State.setRegsFrom, ih]; rfl

/-- Raising changes the status alone. -/
theorem State.raise_eq (e : Status) : s.raise e = { s with status := (s.raise e).status } := by
  unfold State.raise; split <;> rfl

/-! ### Registers seen through the updates that leave them -/

@[simp] theorem State.reg_advance (x : RegNum) : s.advance.reg x = s.reg x := rfl
@[simp] theorem State.reg_setI (w : Word) (x : RegNum) : (s.setI w).reg x = s.reg x := rfl
@[simp] theorem State.reg_jumpTo (w : Word) (x : RegNum) : (s.jumpTo w).reg x = s.reg x := rfl
@[simp] theorem State.reg_skipIf (c : Bool) (x : RegNum) : (s.skipIf c).reg x = s.reg x := rfl
@[simp] theorem State.reg_pulseDiag (w : Word) (x : RegNum) : (s.pulseDiag w).reg x = s.reg x := rfl
@[simp] theorem State.reg_pulseDiagIf (c : Bool) (w : Word) (x : RegNum) :
    (s.pulseDiagIf c w).reg x = s.reg x := rfl
@[simp] theorem State.reg_clearDisplay (x : RegNum) : s.clearDisplay.reg x = s.reg x := rfl
@[simp] theorem State.reg_showCanvas (c : Canvas) (x : RegNum) :
    (s.showCanvas c).reg x = s.reg x := rfl
@[simp] theorem State.reg_loadDelay (b : Byte) (x : RegNum) : (s.loadDelay b).reg x = s.reg x := rfl
@[simp] theorem State.reg_loadSound (b : Byte) (x : RegNum) : (s.loadSound b).reg x = s.reg x := rfl
@[simp] theorem State.reg_awaitKey (k x : RegNum) : (s.awaitKey k).reg x = s.reg x := rfl
@[simp] theorem State.reg_pushAndJump (w : Word) (x : RegNum) :
    (s.pushAndJump w).reg x = s.reg x := State.reg_congr (by simp) x
@[simp] theorem State.reg_popAndReturn (x : RegNum) : s.popAndReturn.reg x = s.reg x :=
  State.reg_congr (by simp) x
@[simp] theorem State.reg_writeBytes (a : Nat) (bs : List Byte) (x : RegNum) :
    (s.writeBytes a bs).reg x = s.reg x := State.reg_congr (by simp) x

/-! ### Registers -/

@[simp] theorem State.reg_setReg_self (x : RegNum) (b : Byte) : (s.setReg x b).reg x = b := by
  simp [State.reg]

theorem State.reg_setReg_of_ne {x y : RegNum} (b : Byte) (h : y ≠ x) :
    (s.setReg x b).reg y = s.reg y := by
  have : x.toNat ≠ y.toNat := fun e => h (BitVec.eq_of_toNat_eq e.symm)
  simp [State.reg, this]

theorem State.reg_setReg (x y : RegNum) (b : Byte) :
    (s.setReg x b).reg y = if y = x then b else s.reg y := by
  split
  · next h => subst h; simp
  · next h => exact s.reg_setReg_of_ne b h

/-- A flag-writing instruction leaves the flag in `VF` (R138). -/
@[simp] theorem State.reg_setResultFlag_flag (x : RegNum) (r f : Byte) :
    (s.setResultFlag x r f).reg regF = f := by simp [State.setResultFlag]

theorem State.reg_setResultFlag_result {x : RegNum} (r f : Byte) (h : x ≠ regF) :
    (s.setResultFlag x r f).reg x = r := by
  simp [State.setResultFlag, State.reg_setReg, h]

theorem State.reg_setResultFlag_of_ne {x y : RegNum} (r f : Byte) (hx : y ≠ x) (hf : y ≠ regF) :
    (s.setResultFlag x r f).reg y = s.reg y := by
  simp [State.setResultFlag, State.reg_setReg, hx, hf]

/-- A run of register writes: `V[k+j]` takes byte `j`, every other register keeps its value. -/
theorem State.reg_setRegsFrom (bs : List Byte) (k : Nat) (hk : k + bs.length ≤ 16) (y : RegNum) :
    (s.setRegsFrom k bs).reg y =
      if h : k ≤ y.toNat ∧ y.toNat - k < bs.length then bs[y.toNat - k]'h.2 else s.reg y := by
  induction bs generalizing s k with
  | nil => simp [State.setRegsFrom]
  | cons b bs ih =>
    simp only [List.length_cons] at hk
    rw [State.setRegsFrom, ih _ (k + 1) (by omega), State.reg_setReg]
    have hkt : (BitVec.ofNat 4 k).toNat = k := by
      rw [BitVec.toNat_ofNat]; exact Nat.mod_eq_of_lt (by omega)
    by_cases hy : y = BitVec.ofNat 4 k
    · have e : y.toNat = k := by rw [hy, hkt]
      have h1 : ¬ (k + 1 ≤ y.toNat ∧ y.toNat - (k + 1) < bs.length) := by omega
      have h2 : k ≤ y.toNat ∧ y.toNat - k < (b :: bs).length := by simp; omega
      rw [dif_neg h1, dif_pos h2, if_pos hy]
      simp [e]
    · have e : y.toNat ≠ k := fun e => hy (BitVec.eq_of_toNat_eq (by rw [hkt]; exact e))
      rw [if_neg hy]
      by_cases h1 : k + 1 ≤ y.toNat ∧ y.toNat - (k + 1) < bs.length
      · have h2 : k ≤ y.toNat ∧ y.toNat - k < (b :: bs).length := by simp; omega
        rw [dif_pos h1, dif_pos h2]
        have e3 : y.toNat - k = (y.toNat - (k + 1)) + 1 := by omega
        simp [e3]
      · have h2 : ¬ (k ≤ y.toNat ∧ y.toNat - k < (b :: bs).length) := by simp; omega
        rw [dif_neg h1, dif_neg h2]

/-! ### Outcomes -/

@[simp] theorem andThen_next (t : State) (f : State → State) : andThen (.next t) f = .next (f t) := rfl

/-- A next state after a further change comes from a next state. -/
theorem andThen_eq_next {o : Outcome} {f : State → State} {t : State} (h : andThen o f = .next t) :
    ∃ u, o = .next u ∧ f u = t := by
  cases o with
  | next u => exact ⟨u, rfl, by simpa [andThen] using h⟩
  | fault r => cases r
  | refused r => simp [andThen] at h

end Sys2Proof.Machine
end

