-- ==== Sys2Proof/Laws/Display.lean ====
section
/-! SUPPORT. The laws of the display: what a toggle changes, when two displays are equal, and when some
pixel is set (spec/44_display.md R150, R151). -/

namespace Sys2Proof.Machine

/-- A pixel after a toggle: flipped at the toggled place, unchanged elsewhere (R150). -/
theorem Display.pixel_toggle (fb : Display) (x y x' y' : Nat) :
    (fb.toggle x y).pixel x' y' =
      if x' % 64 = x % 64 ∧ y' % 32 = y % 32 then !fb.pixel x y else fb.pixel x' y' := by
  unfold Display.toggle Display.pixel
  by_cases hy : y' % 32 = y % 32
  · by_cases hx : x' % 64 = x % 64
    · simp [hx, hy]
    · have hx' : x % 64 ≠ x' % 64 := fun e => hx e.symm
      simp [hx, hx', hy]
  · have hy' : y % 32 ≠ y' % 32 := fun e => hy e.symm
    simp [hy, hy']

/-- Coordinates wrap (R150). -/
@[simp] theorem Display.pixel_mod (fb : Display) (x y : Nat) :
    fb.pixel (x % 64) (y % 32) = fb.pixel x y := by simp [Display.pixel]

@[simp] theorem Display.pixel_blank (x y : Nat) : Display.blank.pixel x y = false := by
  simp [Display.pixel, Display.blank]

/-- Two displays with the same pixels are the same display. -/
theorem Display.ext_pixel {fb fb' : Display}
    (h : ∀ x, x < 64 → ∀ y, y < 32 → fb.pixel x y = fb'.pixel x y) : fb = fb' := by
  refine Vector.ext fun y hy => Vector.ext fun x hx => ?_
  have := h x hx y hy
  simpa [Display.pixel, Nat.mod_eq_of_lt hx, Nat.mod_eq_of_lt hy] using this

/-- Some pixel is 1 (R151). -/
theorem Display.anySet_iff (fb : Display) :
    fb.anySet = true ↔ ∃ x, x < 64 ∧ ∃ y, y < 32 ∧ fb.pixel x y = true := by
  unfold Display.anySet
  rw [List.any_eq_true]
  constructor
  · rintro ⟨row, hrow, h⟩
    obtain ⟨b, hb, h⟩ := List.any_eq_true.mp h
    obtain ⟨y, hy, rfl⟩ := List.getElem_of_mem hrow
    obtain ⟨x, hx, rfl⟩ := List.getElem_of_mem hb
    have hy' : y < 32 := by simpa using hy
    have hx' : x < 64 := by simpa using hx
    exact ⟨x, hx', y, hy', by
      simpa [Display.pixel, Nat.mod_eq_of_lt hx', Nat.mod_eq_of_lt hy'] using h⟩
  · rintro ⟨x, hx, y, hy, h⟩
    refine ⟨fb[y], by simp, List.any_eq_true.mpr ⟨fb[y][x], by simp, ?_⟩⟩
    simpa [Display.pixel, Nat.mod_eq_of_lt hx, Nat.mod_eq_of_lt hy] using h

/-- A plotted 1 bit toggles its pixel and marks a pixel that was set (R150). -/
theorem Canvas.plot_one (c : Canvas) (px py : Nat) :
    c.plot px py true =
      { fb := c.fb.toggle px py, collided := c.collided || c.fb.pixel px py, toggled := true } := rfl

/-- A plotted 0 bit leaves everything alone (R150). -/
@[simp] theorem Canvas.plot_zero (c : Canvas) (px py : Nat) : c.plot px py false = c := rfl

end Sys2Proof.Machine
end

