-- ==== Sys2Proof/Laws/Flags.lean ====
section
/-! SUPPORT. The values of the operand forms, results and flags, as naturals. -/

namespace Sys2Proof.Machine

@[simp] theorem addrOperand_toNat (nnn : Addr) : (addrOperand nnn).toNat = nnn.toNat := by
  have := nnn.isLt
  simp only [addrOperand, BitVec.toNat_setWidth]
  omega

@[simp] theorem byteOperand_toNat (b : Byte) : (byteOperand b).toNat = b.toNat := by
  have := b.isLt
  simp only [byteOperand, BitVec.toNat_setWidth]
  omega

/-- The word of family 0 is its operand (R118). -/
theorem wordAddr_zero (nnn : Addr) : wordAddr 0x0#4 nnn = addrOperand nnn := by
  refine BitVec.eq_of_getLsbD_eq fun k hk => ?_
  simp only [wordAddr, addrOperand, BitVec.getLsbD_append, BitVec.getLsbD_setWidth]
  by_cases h : k < 12
  · simp [h, hk]
  · have : nnn.getLsbD k = false := BitVec.getLsbD_of_ge _ _ (by omega)
    simp [h, this]

@[simp] theorem addByte_toNat (a b : Byte) : (addByte a b).toNat = (a.toNat + b.toNat) % 256 := by
  simp [addByte]

@[simp] theorem subByte_toNat (a b : Byte) :
    (subByte a b).toNat = (256 + a.toNat - b.toNat) % 256 := by
  have := a.isLt
  have := b.isLt
  simp only [subByte, BitVec.toNat_ofInt]
  omega

@[simp] theorem shiftRight_toNat (a : Byte) : (shiftRight a).toNat = a.toNat / 2 := by
  have := a.isLt
  simp only [shiftRight, BitVec.toNat_ofNat]
  omega

@[simp] theorem shiftLeft_toNat (a : Byte) : (shiftLeft a).toNat = a.toNat * 2 % 256 := by
  simp [shiftLeft]

@[simp] theorem shiftedOutRight_toNat (a : Byte) : (shiftedOutRight a).toNat = a.toNat % 2 := by
  revert a; decide

@[simp] theorem shiftedOutLeft_toNat (a : Byte) : (shiftedOutLeft a).toNat = a.toNat / 128 := by
  revert a; decide

/-- A flag value is 0 or 1 (10_state.md R21). -/
theorem flagByte_cases (b : Bool) : flagByte b = 0 ∨ flagByte b = 1 := by
  cases b <;> simp [flagByte]

@[simp] theorem bcdDigits_length (b : Byte) : (bcdDigits b).length = 3 := rfl

@[simp] theorem State.regsUpTo_length (s : State) (x : RegNum) :
    (s.regsUpTo x).length = x.toNat + 1 := by simp [State.regsUpTo]

@[simp] theorem State.storeAtIndex_eq_writeBytes (s : State) (bs : List Byte) :
    s.storeAtIndex bs = s.writeBytes s.i.toNat bs := rfl

@[simp] theorem State.loadAtIndex_length (s : State) (n : Nat) : (s.loadAtIndex n).length = n := by
  simp [State.loadAtIndex, State.readBytes]

theorem State.loadAtIndex_getElem (s : State) (n k : Nat) (h : k < (s.loadAtIndex n).length) :
    (s.loadAtIndex n)[k] = s.memRead (s.effAddr k) := by
  simp [State.loadAtIndex, State.readBytes, State.effAddr, State.memRead, maskAddr]

end Sys2Proof.Machine
end

