-- ==== Sys2Proof/Laws/Draw.lean ====
section
/-! SUPPORT. DRW's two nested loops as one run over the sprite's dots. The dots of a sprite fall on
different pixels, so each set dot toggles its own pixel once (spec/44_display.md R152). -/

namespace Sys2Proof.Machine

/-- One bit of a sprite, at its place before the wrap-around. -/
structure Dot where
  x : Nat
  y : Nat
  b : Bool
/-- The two dots fall on different pixels. -/
def Dot.apart (t u : Dot) : Prop := ¬ (t.x % 64 = u.x % 64 ∧ t.y % 32 = u.y % 32)

/-- The dot is set and falls on the pixel. -/
def Dot.at (t : Dot) (X Y : Nat) : Prop := t.b = true ∧ t.x % 64 = X ∧ t.y % 32 = Y

/-- The canvas after one dot. -/
def plotDot (c : Canvas) (t : Dot) : Canvas := c.plot t.x t.y t.b

/-- What plotting dots that fall on different pixels does: each set dot toggles its pixel, no other pixel
changes, and the two marks say what happened. -/
theorem foldl_plotDot (L : List Dot) (hp : L.Pairwise Dot.apart) (c : Canvas) :
    (∀ X Y, X < 64 → Y < 32 →
      ((∃ t ∈ L, t.at X Y) → (L.foldl plotDot c).fb.pixel X Y = !c.fb.pixel X Y) ∧
      ((¬ ∃ t ∈ L, t.at X Y) → (L.foldl plotDot c).fb.pixel X Y = c.fb.pixel X Y)) ∧
    ((L.foldl plotDot c).collided = true ↔
      c.collided = true ∨ ∃ t ∈ L, t.b = true ∧ c.fb.pixel t.x t.y = true) ∧
    ((L.foldl plotDot c).toggled = true ↔ c.toggled = true ∨ ∃ t ∈ L, t.b = true) := by
  induction L generalizing c with
  | nil => simp
  | cons t L ih =>
    have hp' := List.pairwise_cons.mp hp
    obtain ⟨i1, i2, i3⟩ := ih hp'.2 (plotDot c t)
    simp only [List.foldl_cons]
    have key : ∀ u ∈ L, (plotDot c t).fb.pixel u.x u.y = c.fb.pixel u.x u.y := by
      intro u hu
      have := hp'.1 u hu
      unfold plotDot Canvas.plot
      split
      · simp only [Display.pixel_toggle]
        rw [if_neg]; intro ⟨e1, e2⟩; exact this ⟨e1.symm, e2.symm⟩
      · rfl
    refine ⟨?_, ?_, ?_⟩
    · intro X Y hX hY
      obtain ⟨j1, j2⟩ := i1 X Y hX hY
      by_cases ht : t.at X Y
      · have hn : ¬ ∃ u ∈ L, u.at X Y := by
          rintro ⟨u, hu, hb, hx, hy⟩
          exact hp'.1 u hu ⟨ht.2.1.trans hx.symm, ht.2.2.trans hy.symm⟩
        have : (plotDot c t).fb.pixel X Y = !c.fb.pixel X Y := by
          obtain ⟨hb, hx, hy⟩ := ht
          subst hx hy
          simp [plotDot, hb, Canvas.plot, Display.pixel_toggle]
        constructor
        · intro _; rw [j2 hn, this]
        · intro h; exact absurd ⟨t, List.mem_cons_self, ht⟩ h
      · have : (plotDot c t).fb.pixel X Y = c.fb.pixel X Y := by
          unfold plotDot Canvas.plot
          split
          · next hb =>
            simp only [Display.pixel_toggle]
            rw [if_neg]
            intro ⟨e1, e2⟩; exact ht ⟨hb, by rw [← e1, Nat.mod_eq_of_lt hX], by rw [← e2, Nat.mod_eq_of_lt hY]⟩
          · rfl
        constructor
        · rintro ⟨u, hu, h⟩
          rcases List.mem_cons.mp hu with rfl | hu
          · exact absurd h ht
          · rw [j1 ⟨u, hu, h⟩, this]
        · intro h
          rw [j2 (fun ⟨u, hu, h'⟩ => h ⟨u, List.mem_cons_of_mem _ hu, h'⟩), this]
    · rw [i2]
      have : ((plotDot c t).collided = true) ↔ c.collided = true ∨ (t.b = true ∧ c.fb.pixel t.x t.y = true) := by
        unfold plotDot Canvas.plot; split <;> simp [*]
      rw [this]
      constructor
      · rintro ((h | h) | ⟨u, hu, h⟩)
        · exact .inl h
        · exact .inr ⟨t, List.mem_cons_self, h⟩
        · exact .inr ⟨u, List.mem_cons_of_mem _ hu, by rw [← key u hu]; exact h⟩
      · rintro (h | ⟨u, hu, h⟩)
        · exact .inl (.inl h)
        · rcases List.mem_cons.mp hu with rfl | hu
          · exact .inl (.inr h)
          · exact .inr ⟨u, hu, by rw [key u hu]; exact h⟩
    · rw [i3]
      have : ((plotDot c t).toggled = true) ↔ c.toggled = true ∨ t.b = true := by
        unfold plotDot Canvas.plot; split <;> simp [*]
      rw [this]; simp [or_assoc]

/-- The dots of one sprite byte, in `Canvas.plotBits`'s order. -/
def bitDots (px py : Nat) (bits : Byte) : Nat → List Dot
  | 0 => []
  | n+1 => ⟨px + (7 - n), py, bits.getLsbD n⟩ :: bitDots px py bits n

/-- The dots of a sprite, in `Canvas.plotRows`'s order. -/
def rowDots (px py : Nat) : List Byte → List Dot
  | [] => []
  | b :: bs => bitDots px py b 8 ++ rowDots px (py+1) bs

theorem plotBits_eq_foldl (c : Canvas) (px py bits n) : c.plotBits px py bits n = (bitDots px py bits n).foldl plotDot c := by
  induction n generalizing c with
  | zero => rfl
  | succ n ih => simp [Canvas.plotBits, bitDots, ih, plotDot]

theorem plotRows_eq_foldl (c : Canvas) (px py bs) : c.plotRows px py bs = (rowDots px py bs).foldl plotDot c := by
  induction bs generalizing c py with
  | nil => rfl
  | cons b bs ih => simp [Canvas.plotRows, rowDots, ih, plotBits_eq_foldl]

theorem mem_bitDots {px py bits n t} (hn : n ≤ 8) :
    t ∈ bitDots px py bits n ↔
      ∃ col, 8 - n ≤ col ∧ col < 8 ∧ t = ⟨px + col, py, bits.getLsbD (7 - col)⟩ := by
  induction n with
  | zero => simp [bitDots]; omega
  | succ n ih =>
    simp only [bitDots, List.mem_cons, ih (by omega)]
    clear ih
    have e : 7 - (7 - n) = n := by omega
    have e2 : 8 - (n+1) ≤ 7 - n := by omega
    have e3 : 7 - n < 8 := by omega
    constructor
    · rintro (rfl | ⟨col, h1, h2, rfl⟩)
      · exact ⟨7 - n, e2, e3, by rw [e]⟩
      · exact ⟨col, by omega, h2, rfl⟩
    · rintro ⟨col, h1, h2, rfl⟩
      by_cases h : col = 7 - n
      · left; subst h; rw [e]
      · right; exact ⟨col, by omega, h2, rfl⟩

theorem mem_rowDots {px py bs t} :
    t ∈ rowDots px py bs ↔
      ∃ row, ∃ h : row < bs.length, ∃ col, col < 8 ∧
        t = ⟨px + col, py + row, bs[row].getLsbD (7 - col)⟩ := by
  induction bs generalizing py with
  | nil => simp [rowDots]
  | cons b bs ih =>
    simp only [rowDots, List.mem_append, ih, mem_bitDots (Nat.le_refl 8)]
    constructor
    · rintro (⟨col, _, h, rfl⟩ | ⟨row, h, col, hc, rfl⟩)
      · exact ⟨0, by simp, col, h, by simp⟩
      · exact ⟨row + 1, by simpa using h, col, hc, by simp; omega⟩
    · rintro ⟨row, h, col, hc, rfl⟩
      cases row with
      | zero => left; exact ⟨col, by omega, hc, by simp⟩
      | succ row => right; exact ⟨row, by simpa using h, col, hc, by simp; omega⟩

theorem bitDots_apart {px py bits n} (hn : n ≤ 8) : (bitDots px py bits n).Pairwise Dot.apart := by
  induction n with
  | zero => simp [bitDots]
  | succ n ih =>
    refine List.pairwise_cons.mpr ⟨?_, ih (by omega)⟩
    intro t ht
    obtain ⟨col, h1, h2, rfl⟩ := (mem_bitDots (by omega)).mp ht
    simp only [Dot.apart]; omega

/-- The dots of a sprite of at most 32 rows fall on different pixels. -/
theorem rowDots_apart {px py bs} (hl : bs.length ≤ 32) : (rowDots px py bs).Pairwise Dot.apart := by
  induction bs generalizing py with
  | nil => simp [rowDots]
  | cons b bs ih =>
    simp only [List.length_cons] at hl
    refine List.pairwise_append.mpr ⟨bitDots_apart (Nat.le_refl 8), ih (by omega), ?_⟩
    intro t ht u hu
    obtain ⟨col, h1, h2, rfl⟩ := (mem_bitDots (by omega)).mp ht
    obtain ⟨row, h3, col', h4, rfl⟩ := mem_rowDots.mp hu
    simp only [Dot.apart]; omega

/-- The dots of DRW's sprite. -/
def State.spriteDots (s : State) (x y : RegNum) (n : Nibble) : List Dot :=
  rowDots (s.reg x).toNat (s.reg y).toNat (s.loadAtIndex n.toNat)

theorem State.spriteDots_at_iff (s : State) (x y n X Y) :
    (∃ t ∈ s.spriteDots x y n, t.at X Y) ↔ s.spriteHits x y n X Y := by
  unfold State.spriteDots State.spriteHits
  simp only [mem_rowDots]
  constructor
  · rintro ⟨t, ⟨row, h, col, hc, rfl⟩, hb, hx, hy⟩
    have hr : row < n.toNat := by simpa using h
    exact ⟨row, hr, col, hc, hx, hy, by simpa [State.loadAtIndex_getElem] using hb⟩
  · rintro ⟨row, hr, col, hc, hx, hy, hb⟩
    refine ⟨_, ⟨row, by simpa using hr, col, hc, rfl⟩, ?_, hx, hy⟩
    simpa [State.loadAtIndex_getElem] using hb

theorem State.drawn_eq_foldl (s : State) (x y n) :
    s.drawn x y n = (s.spriteDots x y n).foldl plotDot ⟨s.fb, false, false⟩ := by
  unfold State.drawn State.spriteDots; exact plotRows_eq_foldl ..

theorem State.spriteDots_apart (s : State) (x y n) : (s.spriteDots x y n).Pairwise Dot.apart :=
  rowDots_apart (by have := n.isLt; simp; omega)

end Sys2Proof.Machine
end

