-- ==== Sys2Proof/Laws/Memory.lean ====
section
/-! SUPPORT. The laws of memory: a read after a write, and the canonical form, which every memory
operation keeps. -/

namespace Sys2Proof.Machine

theorem cellLookup_cellErase (m : Memory) (a a' : Nat) :
    cellLookup (cellErase m a) a' = if a' = a then none else cellLookup m a' := by
  induction m with
  | nil => simp [cellErase, cellLookup]
  | cons c m ih =>
    unfold cellErase
    by_cases hc : c.1 = a
    · rw [if_pos hc, ih]
      by_cases h : a' = a
      · simp [h]
      · have : c.1 ≠ a' := fun e => h (e.symm.trans hc)
        simp [h, cellLookup, this]
    · rw [if_neg hc]
      by_cases h : c.1 = a'
      · have : a' ≠ a := fun e => hc (h.trans e)
        simp [cellLookup, h, this]
      · simp only [cellLookup, h, if_false, ih]

theorem cellLookup_cellInsert (m : Memory) (a a' : Nat) (b : Byte) :
    cellLookup (cellInsert m a b) a' = if a' = a then some b else cellLookup m a' := by
  induction m with
  | nil => simp [cellInsert, cellLookup, eq_comm]
  | cons c m ih =>
    unfold cellInsert
    by_cases h1 : a < c.1
    · rw [if_pos h1]; simp [cellLookup, eq_comm]
    · rw [if_neg h1]
      by_cases h2 : a = c.1
      · rw [if_pos h2]
        subst h2
        by_cases h : a' = c.1 <;> simp [cellLookup, h, eq_comm]
      · rw [if_neg h2]
        by_cases h : c.1 = a'
        · have : a' ≠ a := fun e => h2 (e.symm.trans h.symm)
          simp [cellLookup, h, this]
        · simp only [cellLookup, h, if_false, ih]

/-- A read of the list after a write, with the unlisted reading put in. -/
theorem cellLookup_cellWrite (font : Vector Byte 80) (m : Memory) (a a' : Nat) (b : Byte) :
    (cellLookup (cellWrite font m a b) a').getD (unlisted font a') =
      if a' = a then b else (cellLookup m a').getD (unlisted font a') := by
  unfold cellWrite
  by_cases hb : b = unlisted font a
  · rw [if_pos hb, cellLookup_cellErase]
    by_cases h : a' = a
    · subst h; simp [hb]
    · simp [h]
  · rw [if_neg hb, cellLookup_cellInsert]
    by_cases h : a' = a <;> simp [h]

/-- A read after a write: the byte written at the same masked address, the old byte elsewhere (R51). -/
theorem State.memRead_memWrite (s : State) (a a' : Nat) (b : Byte) :
    (s.memWrite a b).memRead a' = if maskAddr a' = maskAddr a then b else s.memRead a' := by
  simp only [State.memRead, State.memWrite_mem, State.memWrite_cfg]
  exact cellLookup_cellWrite _ _ _ _ _

/-- A read depends on the memory and the font alone. -/
theorem State.memRead_congr {s t : State} (hm : t.mem = s.mem) (hc : t.cfg = s.cfg) (a : Nat) :
    t.memRead a = s.memRead a := by simp [State.memRead, hm, hc]

@[simp] theorem State.memRead_mask (s : State) (a : Nat) : s.memRead (a % 4096) = s.memRead a := by
  simp [State.memRead, maskAddr]

/-- An address outside the run of bytes written reads as before. -/
theorem State.memRead_writeBytes_outside (s : State) (bs : List Byte) (a a' : Nat)
    (h : ∀ k, k < bs.length → maskAddr a' ≠ maskAddr (a + k)) :
    (s.writeBytes a bs).memRead a' = s.memRead a' := by
  induction bs generalizing s a with
  | nil => rfl
  | cons b bs ih =>
    rw [State.writeBytes, ih _ (a + 1), State.memRead_memWrite,
      if_neg (by simpa using h 0 (by simp))]
    intro k hk
    have := h (k + 1) (by simpa using hk)
    rwa [show a + 1 + k = a + (k + 1) by omega]

/-- Byte `k` of a run of at most 4096 bytes reads back at its address. -/
theorem State.memRead_writeBytes_inside (s : State) (bs : List Byte) (a k : Nat)
    (hl : bs.length ≤ 4096) (hk : k < bs.length) :
    (s.writeBytes a bs).memRead (a + k) = bs[k] := by
  induction bs generalizing s a k with
  | nil => simp at hk
  | cons b bs ih =>
    rw [State.writeBytes]
    simp only [List.length_cons] at hl hk
    cases k with
    | zero =>
      rw [State.memRead_writeBytes_outside]
      · simp [State.memRead_memWrite]
      · intro j hj
        simp only [maskAddr]
        omega
    | succ k =>
      rw [show a + (k + 1) = a + 1 + k by omega, ih _ _ _ (by omega) (by omega)]
      simp

/-! ### The canonical form -/

theorem mem_cellErase {m : Memory} {a : Nat} {d : Host.Cell} (h : d ∈ cellErase m a) :
    d ∈ m ∧ d.1 ≠ a := by
  induction m with
  | nil => simp [cellErase] at h
  | cons c m ih =>
    unfold cellErase at h
    by_cases hc : c.1 = a
    · rw [if_pos hc] at h
      exact ⟨List.mem_cons_of_mem _ (ih h).1, (ih h).2⟩
    · rw [if_neg hc] at h
      rcases List.mem_cons.mp h with rfl | h
      · exact ⟨List.mem_cons_self, hc⟩
      · exact ⟨List.mem_cons_of_mem _ (ih h).1, (ih h).2⟩

theorem mem_cellInsert {m : Memory} {a : Nat} {b : Byte} {d : Host.Cell}
    (h : d ∈ cellInsert m a b) : d = (a, b) ∨ d ∈ m := by
  induction m with
  | nil => simpa [cellInsert] using h
  | cons c m ih =>
    unfold cellInsert at h
    split at h
    · exact List.mem_cons.mp h
    · split at h
      · rcases List.mem_cons.mp h with h | h
        · exact .inl h
        · exact .inr (List.mem_cons_of_mem _ h)
      · rcases List.mem_cons.mp h with rfl | h
        · exact .inr List.mem_cons_self
        · rcases ih h with h | h
          · exact .inl h
          · exact .inr (List.mem_cons_of_mem _ h)

theorem cellErase_rising {m : Memory} {a : Nat} (h : m.Pairwise (fun c d => c.1 < d.1)) :
    (cellErase m a).Pairwise (fun c d => c.1 < d.1) := by
  induction m with
  | nil => simp [cellErase]
  | cons c m ih =>
    have hp := List.pairwise_cons.mp h
    unfold cellErase
    split
    · exact ih hp.2
    · exact List.pairwise_cons.mpr ⟨fun d hd => hp.1 d (mem_cellErase hd).1, ih hp.2⟩

theorem cellInsert_rising {m : Memory} {a : Nat} {b : Byte}
    (h : m.Pairwise (fun c d => c.1 < d.1)) :
    (cellInsert m a b).Pairwise (fun c d => c.1 < d.1) := by
  induction m with
  | nil => simp [cellInsert]
  | cons c m ih =>
    have hp := List.pairwise_cons.mp h
    unfold cellInsert
    split
    · next h1 =>
      refine List.pairwise_cons.mpr ⟨fun d hd => ?_, h⟩
      rcases List.mem_cons.mp hd with rfl | hd
      · exact h1
      · exact Nat.lt_trans h1 (hp.1 d hd)
    · next h1 =>
      split
      · next h2 =>
        exact List.pairwise_cons.mpr ⟨fun d hd => by simpa [h2] using hp.1 d hd, hp.2⟩
      · next h2 =>
        refine List.pairwise_cons.mpr ⟨fun d hd => ?_, ih hp.2⟩
        rcases mem_cellInsert hd with rfl | hd
        · have : ¬ a < c.1 := h1
          show c.1 < a
          omega
        · exact hp.1 d hd

/-- A write keeps the canonical form. -/
theorem cellWrite_wf {font : Vector Byte 80} {m : Memory} {a : Nat} {b : Byte} (ha : a < 4096)
    (h : Memory.wf font m) : Memory.wf font (cellWrite font m a b) := by
  unfold cellWrite
  split
  · exact ⟨cellErase_rising h.1, fun c hc => h.2 c (mem_cellErase hc).1⟩
  · next hb =>
    refine ⟨cellInsert_rising h.1, fun c hc => ?_⟩
    rcases mem_cellInsert hc with rfl | hc
    · exact ⟨ha, hb⟩
    · exact h.2 c hc

theorem State.memWrite_wf (s : State) (a : Nat) (b : Byte) (h : Memory.wf s.cfg.font s.mem) :
    Memory.wf (s.memWrite a b).cfg.font (s.memWrite a b).mem :=
  cellWrite_wf (Nat.mod_lt _ (by decide)) h

/-- A run of writes keeps the canonical form: with `memWrite_wf`, every memory operation keeps it. -/
theorem State.writeBytes_wf (s : State) (a : Nat) (bs : List Byte)
    (h : Memory.wf s.cfg.font s.mem) :
    Memory.wf (s.writeBytes a bs).cfg.font (s.writeBytes a bs).mem := by
  induction bs generalizing s a with
  | nil => exact h
  | cons b bs ih => exact ih _ _ (s.memWrite_wf a b h)

/-- The memory of the machine after reset is canonical. -/
theorem reset_memory_wf : Memory.wf State.reset.cfg.font State.reset.mem := by decide

/-! ### Fetch -/

/-- A word placed at `PC` is the word fetched (log 6). -/
theorem State.fetchWord_placeWord (s : State) (w : Word) : (s.placeWord w).fetchWord = w := by
  have hne : maskAddr s.pc.toNat ≠ maskAddr (s.pc.toNat + 1) := by simp only [maskAddr]; omega
  have hhi : (s.placeWord w).memRead s.pc.toNat = w.extractLsb' 8 8 := by
    unfold State.placeWord
    rw [State.memRead_memWrite, if_neg hne, State.memRead_memWrite, if_pos rfl]
  have hlo : (s.placeWord w).memRead (s.pc.toNat + 1) = w.extractLsb' 0 8 := by
    unfold State.placeWord
    rw [State.memRead_memWrite, if_pos rfl]
  have hpc : (s.placeWord w).pc = s.pc := rfl
  unfold State.fetchWord
  rw [hpc, hhi, hlo]
  refine BitVec.eq_of_getLsbD_eq fun k hk => ?_
  rw [BitVec.getLsbD_append, BitVec.getLsbD_extractLsb', BitVec.getLsbD_extractLsb']
  by_cases h : k < 8
  · simp [h]
  · have h1 : k - 8 < 8 := by omega
    have h2 : 8 + (k - 8) = k := by omega
    simp [h, h1, h2]

/-- The word that is ready to run is the word the next frame fetches (log 6). -/
theorem State.fetchWord_readyToRun (s : State) (w : Word) : (s.readyToRun w).fetchWord = w :=
  s.fetchWord_placeWord w

end Sys2Proof.Machine
end

