-- ==== Sys2Proof/Laws/PerInstr.lean ====
section
/-! SUPPORT. The family OwnRow, one lemma an instruction: the encoded word has the match under the mask
of the instruction's own row of spec/opcode_table.json (30_encoding.md R86). -/

namespace Sys2Proof.Laws.OwnRow

/-- The word of the instruction hits the row of its mnemonic. -/
def Statement (i : Instr) : Prop :=
  ∃ r ∈ opcodeRows ++ [sysRow], r.mnemonic = i.mnemonic ∧ r.hits (encode i) = true

/-- A row of mask `F000` is hit by the words of its `OP`. -/
theorem hits_F000 {m : String} {p w : Word} (h : wordAddr (fieldOp w) 0#12 = p) :
    (OpRow.mk m 0xF000 p).hits w = true := by simp [OpRow.hits, and_F000, h]

/-- A row of mask `F00F` is hit by the words of its `OP` and `N`. -/
theorem hits_F00F {m : String} {p w : Word} (h : wordXYN (fieldOp w) 0#4 0#4 (fieldN w) = p) :
    (OpRow.mk m 0xF00F p).hits w = true := by simp [OpRow.hits, and_F00F, h]

/-- A row of mask `F0FF` is hit by the words of its `OP` and `NN`. -/
theorem hits_F0FF {m : String} {p w : Word} (h : wordXNN (fieldOp w) 0#4 (fieldNN w) = p) :
    (OpRow.mk m 0xF0FF p).hits w = true := by simp [OpRow.hits, and_F0FF, h]

theorem sys (nnn : Addr) : Statement (.sys nnn) :=
  ⟨⟨"SYS", 0xF000, 0x0000⟩, by decide, rfl, hits_F000 (by simp [encode]; rfl)⟩

theorem cls : Statement .cls :=
  ⟨⟨"CLS", 0xF0FF, 0x00E0⟩, by decide, rfl, hits_F0FF (by simp [encode]; rfl)⟩

theorem ret : Statement .ret :=
  ⟨⟨"RET", 0xF0FF, 0x00EE⟩, by decide, rfl, hits_F0FF (by simp [encode]; rfl)⟩

theorem jp (nnn : Addr) : Statement (.jp nnn) :=
  ⟨⟨"JP", 0xF000, 0x1000⟩, by decide, rfl, hits_F000 (by simp [encode]; rfl)⟩

theorem call (nnn : Addr) : Statement (.call nnn) :=
  ⟨⟨"CALL", 0xF000, 0x2000⟩, by decide, rfl, hits_F000 (by simp [encode]; rfl)⟩

theorem seImm (x : RegNum) (nn : Byte) : Statement (.seImm x nn) :=
  ⟨⟨"SE_IMM", 0xF000, 0x3000⟩, by decide, rfl, hits_F000 (by simp [encode]; rfl)⟩

theorem sneImm (x : RegNum) (nn : Byte) : Statement (.sneImm x nn) :=
  ⟨⟨"SNE_IMM", 0xF000, 0x4000⟩, by decide, rfl, hits_F000 (by simp [encode]; rfl)⟩

theorem seReg (x : RegNum) (y : RegNum) : Statement (.seReg x y) :=
  ⟨⟨"SE_REG", 0xF000, 0x5000⟩, by decide, rfl, hits_F000 (by simp [encode]; rfl)⟩

theorem ldImm (x : RegNum) (nn : Byte) : Statement (.ldImm x nn) :=
  ⟨⟨"LD_IMM", 0xF000, 0x6000⟩, by decide, rfl, hits_F000 (by simp [encode]; rfl)⟩

theorem addImm (x : RegNum) (nn : Byte) : Statement (.addImm x nn) :=
  ⟨⟨"ADD_IMM", 0xF000, 0x7000⟩, by decide, rfl, hits_F000 (by simp [encode]; rfl)⟩

theorem ldReg (x : RegNum) (y : RegNum) : Statement (.ldReg x y) :=
  ⟨⟨"LD_REG", 0xF00F, 0x8000⟩, by decide, rfl, hits_F00F (by simp [encode]; rfl)⟩

theorem orReg (x : RegNum) (y : RegNum) : Statement (.orReg x y) :=
  ⟨⟨"OR", 0xF00F, 0x8001⟩, by decide, rfl, hits_F00F (by simp [encode]; rfl)⟩

theorem andReg (x : RegNum) (y : RegNum) : Statement (.andReg x y) :=
  ⟨⟨"AND", 0xF00F, 0x8002⟩, by decide, rfl, hits_F00F (by simp [encode]; rfl)⟩

theorem xorReg (x : RegNum) (y : RegNum) : Statement (.xorReg x y) :=
  ⟨⟨"XOR", 0xF00F, 0x8003⟩, by decide, rfl, hits_F00F (by simp [encode]; rfl)⟩

theorem addReg (x : RegNum) (y : RegNum) : Statement (.addReg x y) :=
  ⟨⟨"ADD_REG", 0xF00F, 0x8004⟩, by decide, rfl, hits_F00F (by simp [encode]; rfl)⟩

theorem sub (x : RegNum) (y : RegNum) : Statement (.sub x y) :=
  ⟨⟨"SUB", 0xF00F, 0x8005⟩, by decide, rfl, hits_F00F (by simp [encode]; rfl)⟩

theorem shr (x : RegNum) : Statement (.shr x) :=
  ⟨⟨"SHR", 0xF00F, 0x8006⟩, by decide, rfl, hits_F00F (by simp [encode]; rfl)⟩

theorem subn (x : RegNum) (y : RegNum) : Statement (.subn x y) :=
  ⟨⟨"SUBN", 0xF00F, 0x8007⟩, by decide, rfl, hits_F00F (by simp [encode]; rfl)⟩

theorem shl (x : RegNum) : Statement (.shl x) :=
  ⟨⟨"SHL", 0xF00F, 0x800E⟩, by decide, rfl, hits_F00F (by simp [encode]; rfl)⟩

theorem sneReg (x : RegNum) (y : RegNum) : Statement (.sneReg x y) :=
  ⟨⟨"SNE_REG", 0xF000, 0x9000⟩, by decide, rfl, hits_F000 (by simp [encode]; rfl)⟩

theorem ldI (nnn : Addr) : Statement (.ldI nnn) :=
  ⟨⟨"LD_I", 0xF000, 0xA000⟩, by decide, rfl, hits_F000 (by simp [encode]; rfl)⟩

theorem jpV0 (nnn : Addr) : Statement (.jpV0 nnn) :=
  ⟨⟨"JP_V0", 0xF000, 0xB000⟩, by decide, rfl, hits_F000 (by simp [encode]; rfl)⟩

theorem rnd (x : RegNum) (nn : Byte) : Statement (.rnd x nn) :=
  ⟨⟨"RND", 0xF000, 0xC000⟩, by decide, rfl, hits_F000 (by simp [encode]; rfl)⟩

theorem drw (x : RegNum) (y : RegNum) (n : Nibble) : Statement (.drw x y n) :=
  ⟨⟨"DRW", 0xF000, 0xD000⟩, by decide, rfl, hits_F000 (by simp [encode]; rfl)⟩

theorem skp (x : RegNum) : Statement (.skp x) :=
  ⟨⟨"SKP", 0xF0FF, 0xE09E⟩, by decide, rfl, hits_F0FF (by simp [encode]; rfl)⟩

theorem sknp (x : RegNum) : Statement (.sknp x) :=
  ⟨⟨"SKNP", 0xF0FF, 0xE0A1⟩, by decide, rfl, hits_F0FF (by simp [encode]; rfl)⟩

theorem ldVxDt (x : RegNum) : Statement (.ldVxDt x) :=
  ⟨⟨"LD_VX_DT", 0xF0FF, 0xF007⟩, by decide, rfl, hits_F0FF (by simp [encode]; rfl)⟩

theorem ldVxK (x : RegNum) : Statement (.ldVxK x) :=
  ⟨⟨"LD_VX_K", 0xF0FF, 0xF00A⟩, by decide, rfl, hits_F0FF (by simp [encode]; rfl)⟩

theorem ldDtVx (x : RegNum) : Statement (.ldDtVx x) :=
  ⟨⟨"LD_DT_VX", 0xF0FF, 0xF015⟩, by decide, rfl, hits_F0FF (by simp [encode]; rfl)⟩

theorem ldStVx (x : RegNum) : Statement (.ldStVx x) :=
  ⟨⟨"LD_ST_VX", 0xF0FF, 0xF018⟩, by decide, rfl, hits_F0FF (by simp [encode]; rfl)⟩

theorem addI (x : RegNum) : Statement (.addI x) :=
  ⟨⟨"ADD_I", 0xF0FF, 0xF01E⟩, by decide, rfl, hits_F0FF (by simp [encode]; rfl)⟩

theorem ldF (x : RegNum) : Statement (.ldF x) :=
  ⟨⟨"LD_F", 0xF0FF, 0xF029⟩, by decide, rfl, hits_F0FF (by simp [encode]; rfl)⟩

theorem ldB (x : RegNum) : Statement (.ldB x) :=
  ⟨⟨"LD_B", 0xF0FF, 0xF033⟩, by decide, rfl, hits_F0FF (by simp [encode]; rfl)⟩

theorem stRegs (x : RegNum) : Statement (.stRegs x) :=
  ⟨⟨"ST_REGS", 0xF0FF, 0xF055⟩, by decide, rfl, hits_F0FF (by simp [encode]; rfl)⟩

theorem ldRegs (x : RegNum) : Statement (.ldRegs x) :=
  ⟨⟨"LD_REGS", 0xF0FF, 0xF065⟩, by decide, rfl, hits_F0FF (by simp [encode]; rfl)⟩

end Sys2Proof.Laws.OwnRow
end

