-- ==== Sys2Proof/Laws/Step.lean ====
section
/-! SUPPORT. What one frame can be: the four kinds of frame, each with the state it answers, and what the
parts of a frame leave alone. A claim about `step` cites these and does not unfold `frame`. -/

namespace Sys2Proof.Machine

variable {s t : State}

/-- The state of a next state is the one named. -/
theorem next_inj (h : (Host.Outcome.next s : Outcome) = .next t) : s = t := by cases h; rfl

/-- Every meaning answers a next state. -/
theorem exec_answers_next (i : Instr) (s : State) : ∃ t, exec i s = .next t := by
  cases i <;> exact ⟨_, rfl⟩

theorem executeWord_answers_next (w : Word) (s : State) : ∃ t, executeWord w s = .next t := by
  unfold executeWord
  split
  · exact exec_answers_next _ s
  · exact ⟨_, rfl⟩

/-! ### The parts of a frame -/

/-- The countdowns change the timers and their accumulators alone. -/
theorem State.timerDecay_eq (s : State) :
    s.timerDecay =
      { s with
          dt := s.timerDecay.dt, st := s.timerDecay.st,
          accDelay := s.timerDecay.accDelay, accSound := s.timerDecay.accSound } := by
  unfold State.timerDecay State.soundCountdown State.delayCountdown
  split <;> split <;> rfl

/-- The redraw cadence changes `DIRTY`, the render pulse and its accumulator alone. -/
theorem State.redrawCadence_eq (s : State) :
    s.redrawCadence =
      { s with
          dirty := s.redrawCadence.dirty, render := s.redrawCadence.render,
          accRedraw := s.redrawCadence.accRedraw } := by
  unfold State.redrawCadence
  split <;> rfl

@[simp] theorem State.frameInput_clearPulses (s : State) : s.clearPulses.frameInput = s.frameInput :=
  State.frameInput_congr rfl rfl

@[simp] theorem State.frameInput_timerDecay (s : State) : s.timerDecay.frameInput = s.frameInput :=
  State.frameInput_congr (by simp) (by simp)

@[simp] theorem State.frameInput_delayCountdown (s : State) :
    s.delayCountdown.frameInput = s.frameInput := State.frameInput_congr (by simp) (by simp)

@[simp] theorem State.frameInput_deliverKey (s : State) : s.deliverKey.frameInput = s.frameInput :=
  State.frameInput_congr (by simp) (by simp)

@[simp] theorem State.reg_timerDecay (s : State) (r : RegNum) : s.timerDecay.reg r = s.reg r :=
  State.reg_congr (by simp) r

@[simp] theorem State.reg_finishFrame (s : State) (r : RegNum) : s.finishFrame.reg r = s.reg r :=
  State.reg_congr (by simp [State.finishFrame]) r

/-- The end of a frame renders exactly when the interval has passed and the display is dirty. -/
theorem State.finishFrame_render_iff (h : s.render = false) :
    s.finishFrame.render = true ↔
      s.cfg.redrawInterval ≤ s.accRedraw + s.frameInput.elapsed ∧ s.dirty = true := by
  unfold State.finishFrame State.redrawCadence
  split
  · next hc => simpa using hc
  · next hc => simp only [State.endFrame_render, h, Bool.false_eq_true, false_iff]; exact hc

/-- Fetch depends on `PC`, the memory and the parameters alone. -/
theorem State.fetchWord_congr (hm : t.mem = s.mem) (hc : t.cfg = s.cfg) (hp : t.pc = s.pc) :
    t.fetchWord = s.fetchWord := by
  unfold State.fetchWord
  rw [hp, State.memRead_congr hm hc, State.memRead_congr hm hc]

/-! ### The state an instruction executes in -/

section beforeInstruction
variable (s : State)

@[simp] theorem State.beforeInstruction_v : s.beforeInstruction.v = s.v := by
  simp [State.beforeInstruction]
@[simp] theorem State.beforeInstruction_pc : s.beforeInstruction.pc = s.pc := by
  simp [State.beforeInstruction]
@[simp] theorem State.beforeInstruction_i : s.beforeInstruction.i = s.i := by
  simp [State.beforeInstruction]
@[simp] theorem State.beforeInstruction_sp : s.beforeInstruction.sp = s.sp := by
  simp [State.beforeInstruction]
@[simp] theorem State.beforeInstruction_stack : s.beforeInstruction.stack = s.stack := by
  simp [State.beforeInstruction]
@[simp] theorem State.beforeInstruction_status : s.beforeInstruction.status = s.status := by
  simp [State.beforeInstruction]
@[simp] theorem State.beforeInstruction_awaiting : s.beforeInstruction.awaiting = s.awaiting := by
  simp [State.beforeInstruction]
@[simp] theorem State.beforeInstruction_target : s.beforeInstruction.target = s.target := by
  simp [State.beforeInstruction]
@[simp] theorem State.beforeInstruction_accInstr : s.beforeInstruction.accInstr = 0 := by
  simp [State.beforeInstruction]
@[simp] theorem State.beforeInstruction_accRedraw :
    s.beforeInstruction.accRedraw = s.accRedraw := by simp [State.beforeInstruction]
@[simp] theorem State.beforeInstruction_fb : s.beforeInstruction.fb = s.fb := by
  simp [State.beforeInstruction]
@[simp] theorem State.beforeInstruction_dirty : s.beforeInstruction.dirty = s.dirty := by
  simp [State.beforeInstruction]
@[simp] theorem State.beforeInstruction_mem : s.beforeInstruction.mem = s.mem := by
  simp [State.beforeInstruction]
@[simp] theorem State.beforeInstruction_progEnd : s.beforeInstruction.progEnd = s.progEnd := by
  simp [State.beforeInstruction]
@[simp] theorem State.beforeInstruction_cfg : s.beforeInstruction.cfg = s.cfg := by
  simp [State.beforeInstruction]
@[simp] theorem State.beforeInstruction_inputs : s.beforeInstruction.inputs = s.inputs := by
  simp [State.beforeInstruction]
@[simp] theorem State.beforeInstruction_frames : s.beforeInstruction.frames = s.frames := by
  simp [State.beforeInstruction]
@[simp] theorem State.beforeInstruction_diag : s.beforeInstruction.diag = none := by
  simp [State.beforeInstruction]
@[simp] theorem State.beforeInstruction_render : s.beforeInstruction.render = false := by
  simp [State.beforeInstruction]
@[simp] theorem State.fetchWord_beforeInstruction : s.beforeInstruction.fetchWord = s.fetchWord :=
  State.fetchWord_congr (by simp) (by simp) (by simp)
@[simp] theorem State.frameInput_beforeInstruction :
    s.beforeInstruction.frameInput = s.frameInput := State.frameInput_congr (by simp) (by simp)

end beforeInstruction

/-! ### The four kinds of frame -/

/-- A frame is of a halted, a waiting, an idle or a ready machine. -/
theorem State.kind_cases (s : State) : s.halted ∨ s.waiting ∨ s.idle ∨ s.ready := by
  by_cases h : s.status = .none
  · cases h2 : s.awaiting
    · by_cases h3 : s.cfg.instrInterval ≤ s.accInstr + s.frameInput.elapsed
      · exact .inr (.inr (.inr ⟨h, h2, h3⟩))
      · exact .inr (.inr (.inl ⟨h, h2, by omega⟩))
    · exact .inr (.inl ⟨h, h2⟩)
  · exact .inl h

theorem cadenceFires_timerDecay (s : State) :
    s.clearPulses.timerDecay.cadenceFires =
      decide (s.cfg.instrInterval ≤ s.accInstr + s.frameInput.elapsed) := by
  simp [State.cadenceFires]

theorem step_of_halted (h : s.halted) : step s = .next s.haltedFrame := by
  unfold step frame; rw [if_neg h]

theorem step_of_waiting (h : s.waiting) : step s = .next s.waitingFrame := by
  unfold step frame; rw [if_pos h.1, if_pos h.2]

theorem step_of_idle (h : s.idle) :
    step s = .next
      ({ s.clearPulses.timerDecay with
          accInstr := s.accInstr + s.frameInput.elapsed } : State).finishFrame := by
  unfold step frame
  rw [if_pos h.1, if_neg (by simp [h.2.1])]
  unfold instructionCadence
  rw [cadenceFires_timerDecay, if_neg (by simpa using h.2.2)]
  simp

theorem step_of_ready (h : s.ready) :
    step s = andThen (executeOne s.beforeInstruction) State.finishFrame := by
  unfold step frame
  rw [if_pos h.1, if_neg (by simp [h.2.1])]
  unfold instructionCadence
  rw [cadenceFires_timerDecay, if_pos (by simpa using h.2.2)]
  rfl

/-- The next state of a ready machine: the word at `PC` executed in the state before the instruction,
then the bounds check, then the end of the frame. -/
theorem step_ready_next (h : s.ready) (hs : step s = .next t) :
    ∃ u, executeWord s.fetchWord s.beforeInstruction = .next u ∧ t = u.boundsCheck.finishFrame := by
  rw [step_of_ready h] at hs
  obtain ⟨u, h1, h2⟩ := andThen_eq_next hs
  obtain ⟨u', h3, h4⟩ := andThen_eq_next h1
  rw [State.fetchWord_beforeInstruction] at h3
  exact ⟨u', h3, by rw [h4, h2]⟩

/-- Everything one step can do. -/
theorem step_cases (hs : step s = .next t) :
    s.halted ∧ t = s.haltedFrame ∨
    s.waiting ∧ t = s.waitingFrame ∨
    s.idle ∧ t = ({ s.clearPulses.timerDecay with
      accInstr := s.accInstr + s.frameInput.elapsed } : State).finishFrame ∨
    s.ready ∧ ∃ u, executeWord s.fetchWord s.beforeInstruction = .next u ∧
      t = u.boundsCheck.finishFrame := by
  rcases s.kind_cases with h | h | h | h
  · rw [step_of_halted h] at hs; exact .inl ⟨h, (next_inj hs).symm⟩
  · rw [step_of_waiting h] at hs; exact .inr (.inl ⟨h, (next_inj hs).symm⟩)
  · rw [step_of_idle h] at hs; exact .inr (.inr (.inl ⟨h, (next_inj hs).symm⟩))
  · exact .inr (.inr (.inr ⟨h, step_ready_next h hs⟩))

/-! ### What no instruction changes -/

/-- No instruction changes the parameters, the inputs, the frame count, the render pulse, the program
bound, or the two accumulators that no timer load clears. -/
theorem exec_leaves {i : Instr} (h : exec i s = .next t) :
    t.cfg = s.cfg ∧ t.inputs = s.inputs ∧ t.frames = s.frames ∧ t.render = s.render ∧
      t.progEnd = s.progEnd ∧ t.accInstr = s.accInstr ∧ t.accRedraw = s.accRedraw := by
  cases i <;> cases next_inj h <;> simp

theorem executeWord_leaves {w : Word} (h : executeWord w s = .next t) :
    t.cfg = s.cfg ∧ t.inputs = s.inputs ∧ t.frames = s.frames ∧ t.render = s.render ∧
      t.progEnd = s.progEnd ∧ t.accInstr = s.accInstr ∧ t.accRedraw = s.accRedraw := by
  unfold executeWord at h
  split at h
  · exact exec_leaves h
  · cases next_inj h; simp

/-- The bounds check looks for a counter outside the program. -/
theorem State.pcOutside_iff (s : State) : s.pcOutside = true ↔ ¬ s.pcInProgram := by
  simp [State.pcOutside]; omega

end Sys2Proof.Machine
end

