-- ==== Sys2Proof/Laws/Run.lean ====
section
/-! SUPPORT. Runs of many frames, one step at a time; the one induction over a run. -/

namespace Sys2Proof.Machine

theorem run_zero (s : State) : core.run 0 s = .next s := rfl

theorem coreRun_succ (M : Host.Core) (n : Nat) (s t : M.State) (h : M.step s = .next t) :
    M.run (n + 1) s = M.run n t := by
  rw [Host.Core.run.eq_def]
  simp only [h]

/-- A run that starts with a step. -/
theorem run_succ {s t : State} (n : Nat) (h : step s = .next t) :
    core.run (n + 1) s = core.run n t :=
  coreRun_succ core n s t h

theorem coreRun_succ_eq_next (M : Host.Core) (n : Nat) (s t : M.State)
    (h : M.run (n + 1) s = .next t) : ∃ u, M.step s = .next u ∧ M.run n u = .next t := by
  rw [Host.Core.run.eq_def] at h
  cases hs : M.step s <;> simp only [hs] at h
  · exact ⟨_, rfl, h⟩
  · cases h
  · cases h

/-- A run of one frame more is a step and a run. -/
theorem run_succ_eq_next {s t : State} {n : Nat} (h : core.run (n + 1) s = .next t) :
    ∃ u, step s = .next u ∧ core.run n u = .next t :=
  coreRun_succ_eq_next core n s t h

/-- What every step keeps, every run keeps. -/
theorem run_keeps {P : State → Prop} (hP : ∀ s t, P s → step s = .next t → P t) {n : Nat}
    {s t : State} (h : P s) (hr : core.run n s = .next t) : P t := by
  induction n generalizing s with
  | zero => cases next_inj hr; exact h
  | succ n ih =>
    obtain ⟨u, hu, hr'⟩ := run_succ_eq_next hr
    exact ih (hP s u h hu) hr'

/-- A run followed by a run. -/
theorem run_add {s t : State} {k n : Nat} (h : core.run k s = .next t) :
    core.run (k + n) s = core.run n t := by
  induction k generalizing s with
  | zero => cases next_inj h; rw [Nat.zero_add]
  | succ k ih =>
    obtain ⟨u, hu, hr⟩ := run_succ_eq_next h
    rw [Nat.succ_add, run_succ _ hu, ih hr]

/-- At an end nothing has halted, nothing waits, and `PC` is the chosen one. -/
theorem State.not_halted_of_atEnd {s : State} {stop : Word} (h : s.atEnd stop) : ¬ s.halted :=
  not_not_intro h.1

end Sys2Proof.Machine
end

