-- ==== Sys2Proof/Tests/Slice0.lean ====
section
/-! SUPPORT. Tests of the model's own work. Expected values come from spec/95_test_vectors.md (the vector's
name stands beside each), from the tables of spec/30_encoding.md, or by hand from the rule named. The
witnesses at the end show, for each obligation with hypotheses, a state and operands that meet them. -/

namespace Sys2Proof.Tests

open Sys2Proof.Machine

/-! ## Well-formedness: each check refuses an ill-formed term -/

theorem test_wf_refuses_sys_with_low_byte_of_cls : (Instr.sys 0x5E0).wf = false := by decide
theorem test_wf_refuses_sys_with_low_byte_of_ret : (Instr.sys 0x0EE).wf = false := by decide
theorem test_wf_accepts_sys_next_to_cls : (Instr.sys 0x0E1).wf = true := by decide

/-! ## Decoding: one word a row, written out bit by bit from 30_encoding.md R73, R75 to R79 -/

theorem test_decode_sys : decodeWord 0b0000000100100011 = .ok (.sys 0x123) := by decide
theorem test_decode_cls : decodeWord 0b0000000011100000 = .ok (.cls) := by decide
theorem test_decode_ret : decodeWord 0b0000000011101110 = .ok (.ret) := by decide
theorem test_decode_jp : decodeWord 0b0001001000110100 = .ok (.jp 0x234) := by decide
theorem test_decode_call : decodeWord 0b0010001100000000 = .ok (.call 0x300) := by decide
theorem test_decode_se_imm : decodeWord 0b0011101000000101 = .ok (.seImm 10 5) := by decide
theorem test_decode_sne_imm : decodeWord 0b0100101000000101 = .ok (.sneImm 10 5) := by decide
theorem test_decode_se_reg : decodeWord 0b0101000100100000 = .ok (.seReg 1 2) := by decide
theorem test_decode_ld_imm : decodeWord 0b0110101000101011 = .ok (.ldImm 10 0x2B) := by decide
theorem test_decode_add_imm : decodeWord 0b0111000011111111 = .ok (.addImm 0 0xFF) := by decide
theorem test_decode_ld_reg : decodeWord 0b1000101011110000 = .ok (.ldReg 10 15) := by decide
theorem test_decode_or : decodeWord 0b1000000100100001 = .ok (.orReg 1 2) := by decide
theorem test_decode_and : decodeWord 0b1000000100100010 = .ok (.andReg 1 2) := by decide
theorem test_decode_xor : decodeWord 0b1000000100100011 = .ok (.xorReg 1 2) := by decide
theorem test_decode_add_reg : decodeWord 0b1000000100100100 = .ok (.addReg 1 2) := by decide
theorem test_decode_sub : decodeWord 0b1000000100100101 = .ok (.sub 1 2) := by decide
theorem test_decode_shr : decodeWord 0b1000000100000110 = .ok (.shr 1) := by decide
theorem test_decode_subn : decodeWord 0b1000000100100111 = .ok (.subn 1 2) := by decide
theorem test_decode_shl : decodeWord 0b1000000100001110 = .ok (.shl 1) := by decide
theorem test_decode_sne_reg : decodeWord 0b1001000100100000 = .ok (.sneReg 1 2) := by decide
theorem test_decode_ld_i : decodeWord 0b1010001100000000 = .ok (.ldI 0x300) := by decide
theorem test_decode_jp_v0 : decodeWord 0b1011001100000000 = .ok (.jpV0 0x300) := by decide
theorem test_decode_rnd : decodeWord 0b1100001100001111 = .ok (.rnd 3 0x0F) := by decide
theorem test_decode_drw : decodeWord 0b1101000100100101 = .ok (.drw 1 2 5) := by decide
theorem test_decode_skp : decodeWord 0b1110000110011110 = .ok (.skp 1) := by decide
theorem test_decode_sknp : decodeWord 0b1110000110100001 = .ok (.sknp 1) := by decide
theorem test_decode_ld_vx_dt : decodeWord 0b1111010000000111 = .ok (.ldVxDt 4) := by decide
theorem test_decode_ld_vx_k : decodeWord 0b1111001100001010 = .ok (.ldVxK 3) := by decide
theorem test_decode_ld_dt_vx : decodeWord 0b1111001100010101 = .ok (.ldDtVx 3) := by decide
theorem test_decode_ld_st_vx : decodeWord 0b1111001100011000 = .ok (.ldStVx 3) := by decide
theorem test_decode_add_i : decodeWord 0b1111000100011110 = .ok (.addI 1) := by decide
theorem test_decode_ld_f : decodeWord 0b1111000000101001 = .ok (.ldF 0) := by decide
theorem test_decode_ld_b : decodeWord 0b1111001000110011 = .ok (.ldB 2) := by decide
theorem test_decode_st_regs : decodeWord 0b1111001001010101 = .ok (.stRegs 2) := by decide
theorem test_decode_ld_regs : decodeWord 0b1111001001100101 = .ok (.ldRegs 2) := by decide

/-! Ignored bits and unrecognised words (T-DEC-5 to T-DEC-8, T-DEC-10) -/

theorem test_decode_cls_ignores_x : decodeWord 0x05E0 = .ok .cls := by decide
theorem test_decode_ret_ignores_x : decodeWord 0x0FEE = .ok .ret := by decide
theorem test_decode_se_reg_ignores_n : decodeWord 0x5127 = .ok (.seReg 1 2) := by decide
theorem test_decode_sne_reg_ignores_n : decodeWord 0x912F = .ok (.sneReg 1 2) := by decide
theorem test_decode_shr_ignores_y : decodeWord 0x8126 = .ok (.shr 1) := by decide
theorem test_decode_shl_ignores_y : decodeWord 0x81FE = .ok (.shl 1) := by decide
theorem test_decode_rejects_8128 : decodeWord 0x8128 = .error (.unrecognised8 0x8128) := by decide
theorem test_decode_rejects_E19F : decodeWord 0xE19F = .error (.unrecognisedE 0xE19F) := by decide
theorem test_decode_rejects_FFFF : decodeWord 0xFFFF = .error (.unrecognisedF 0xFFFF) := by decide
theorem test_decode_rejects_one_byte : decodeBytes [0x12] = .error (.truncated 1) := by decide
theorem test_decode_table_word : decodeTableWord 16 0xD125 = some (.drw 1 2 5) := by decide
theorem test_decode_table_word_rejects : decodeTableWord 16 0x8128 = none := by decide

/-! ## Helpers -/

/-- Long periods, so that only the tested effect shows; an instruction fires in every frame. -/
def quiet : Config := { Config.initial with timerPeriod := 100, redrawInterval := 100 }

/-- The reset state with a full-size program bound, its accumulator full: the frame needs no time. -/
def base : State := { State.reset with cfg := quiet, progEnd := 0x1000, accInstr := 1 }

def withRegs (s : State) (l : List (RegNum × Byte)) : State := l.foldl (fun s p => s.setReg p.1 p.2) s

/-- A frame of so much time, without key, keys or random byte. -/
def tick (elapsed : Nat) (key : Option Byte := none) : FrameInput :=
  { elapsed := elapsed, key := key, keys := 0, rnd := 0 }

/-- The state after the word, placed at `PC`, has run in one frame. -/
def after (s : State) (w : Nat) : Option State :=
  match step (s.withFetchWord 16 w) with
  | .next t => some t
  | _ => none

/-- The state after one frame. -/
def afterFrame (s : State) : Option State :=
  match step s with
  | .next t => some t
  | _ => none

/-! ## Control flow (T-CF) -/

/-- T-CF-1. -/
theorem test_jp_inside :
    (after ({ base with progEnd := 0x300 }) 0x1234).map (fun t => (t.pc, t.status)) = some (0x234, .none) := by decide

/-- T-CF-2. -/
theorem test_jp_to_bound_halts :
    (after ({ base with progEnd := 0x300 }) 0x1300).map (fun t => (t.pc, t.status)) = some (0x300, .outOfBounds) := by decide

/-- T-CF-6. -/
theorem test_call_pushes_own_address :
    (after ({ base with pc := 0x204, sp := 15 }) 0x2300).map (fun t => (t.stack[15], t.sp, t.pc, t.status)) = some (0x204, 16, 0x300, .none) := by decide

/-- T-CF-7. -/
theorem test_call_full_stack :
    (after ({ base with pc := 0x204, sp := 16 }) 0x2300).map (fun t => (t.stack, t.sp, t.pc, t.status)) = some (base.stack, 16, 0x204, .stackOverflow) := by decide

/-- T-CF-8. -/
theorem test_ret_pops :
    (after ({ base with pc := 0x300, sp := 1, stack := base.stack.set 0 0x204 }) 0x00EE).map (fun t => (t.sp, t.pc, t.stack[0])) = some (0, 0x206, 0x204) := by decide

/-- T-CF-9. -/
theorem test_ret_empty_stack :
    (after ({ base with pc := 0x300 }) 0x00EE).map (fun t => (t.sp, t.pc, t.status)) = some (0, 0x300, .stackUnderflow) := by decide

/-- T-CF-10. -/
theorem test_se_imm_equal :
    (after (withRegs base [(10, 5)]) 0x3A05).map (fun t => t.pc) = some 0x204 := by decide

/-- T-CF-11. -/
theorem test_se_imm_unequal :
    (after (withRegs base [(10, 5)]) 0x3A06).map (fun t => t.pc) = some 0x202 := by decide

/-- T-CF-12. -/
theorem test_sne_imm_equal :
    (after (withRegs base [(10, 5)]) 0x4A05).map (fun t => t.pc) = some 0x202 := by decide

/-- T-CF-13. -/
theorem test_sne_imm_unequal :
    (after (withRegs base [(10, 5)]) 0x4A06).map (fun t => t.pc) = some 0x204 := by decide

/-- T-CF-14. -/
theorem test_se_reg_equal :
    (after (withRegs base [(1, 7), (2, 7)]) 0x5120).map (fun t => t.pc) = some 0x204 := by decide

/-- R115. -/
theorem test_se_reg_unequal :
    (after (withRegs base [(1, 7), (2, 8)]) 0x5120).map (fun t => t.pc) = some 0x202 := by decide

/-- T-CF-16. -/
theorem test_sne_reg_unequal :
    (after (withRegs base [(1, 7), (2, 8)]) 0x9120).map (fun t => t.pc) = some 0x204 := by decide

/-- T-CF-17. -/
theorem test_sne_reg_same :
    (after (withRegs base [(1, 7)]) 0x9110).map (fun t => t.pc) = some 0x202 := by decide

/-- T-CF-18. -/
theorem test_jp_v0 :
    (after ({ withRegs base [(0, 0x10)] with progEnd := 0x400 }) 0xB300).map (fun t => t.pc) = some 0x310 := by decide

/-- T-CF-19. -/
theorem test_jp_v0_top :
    (after (withRegs base [(0, 0xFF)]) 0xBFFF).map (fun t => (t.pc, t.status)) = some (0x10FE, .outOfBounds) := by decide

/-- T-CF-20. -/
theorem test_sys :
    (after (base) 0x0123).map (fun t => (t.diag, t.pc)) = some (some 0x0123, 0x202) := by decide

/-- R118. -/
theorem test_sys_without_diagnostic :
    (after ({ base with cfg := { quiet with sysDiag := false } }) 0x0123).map (fun t => (t.diag, t.pc)) = some (none, 0x202) := by decide

/-- T-CF-21. -/
theorem test_skip_out_of_program :
    (after ({ base with progEnd := 0x204 }) 0x3000).map (fun t => (t.pc, t.status)) = some (0x204, .outOfBounds) := by decide

/-- P6. -/
theorem test_unrecognised_word :
    (after (base) 0x8128).map (fun t => (t.diag, t.pc, t.v, t.status)) = some (some 0x8128, 0x202, base.v, .none) := by decide


/-! ## Loads and arithmetic (T-ALU, S5 to S10) -/

/-- T-ALU-1. -/
theorem test_ld_imm :
    (after (base) 0x6A2B).map (fun t => t.reg 10) = some 0x2B := by decide

/-- T-ALU-2. -/
theorem test_ld_reg :
    (after (withRegs base [(15, 1)]) 0x8AF0).map (fun t => t.reg 10) = some 1 := by decide

/-- T-ALU-4. -/
theorem test_add_imm_wraps :
    (after (withRegs base [(0, 0xFF)]) 0x7001).map (fun t => (t.reg 0, t.reg 15, t.status)) = some (0, 0, .none) := by decide

/-- T-ALU-5. -/
theorem test_add_imm_to_vf :
    (after (withRegs base [(15, 0xFE)]) 0x7F03).map (fun t => t.reg 15) = some 1 := by decide

/-- T-ALU-6. -/
theorem test_or :
    (after (withRegs base [(1, 0x0F), (2, 0xF0), (15, 9)]) 0x8121).map (fun t => (t.reg 1, t.reg 15)) = some (0xFF, 9) := by decide

/-- T-ALU-7. -/
theorem test_and :
    (after (withRegs base [(1, 0x3C), (2, 0x0F)]) 0x8122).map (fun t => t.reg 1) = some 0x0C := by decide

/-- T-ALU-8. -/
theorem test_xor :
    (after (withRegs base [(1, 0xFF), (2, 0x0F)]) 0x8123).map (fun t => t.reg 1) = some 0xF0 := by decide

/-- T-ALU-9. -/
theorem test_xor_same :
    (after (withRegs base [(1, 0x5A)]) 0x8113).map (fun t => t.reg 1) = some 0 := by decide

/-- S6. -/
theorem test_add_reg_carries :
    (after (withRegs base [(1, 230), (2, 100)]) 0x8124).map (fun t => (t.reg 1, t.reg 15)) = some (0x4A, 1) := by decide

/-- T-ALU-12. -/
theorem test_add_reg_flag_survives :
    (after (withRegs base [(15, 200), (1, 100)]) 0x8F14).map (fun t => t.reg 15) = some 1 := by decide

/-- S8. -/
theorem test_sub_borrows :
    (after (withRegs base [(1, 30), (2, 150)]) 0x8125).map (fun t => (t.reg 1, t.reg 15)) = some (0x88, 0) := by decide

/-- T-ALU-14. -/
theorem test_sub_equal :
    (after (withRegs base [(1, 7), (2, 7)]) 0x8125).map (fun t => (t.reg 1, t.reg 15)) = some (0, 0) := by decide

/-- T-ALU-16. -/
theorem test_subn :
    (after (withRegs base [(1, 30), (2, 150)]) 0x8127).map (fun t => (t.reg 1, t.reg 15)) = some (120, 1) := by decide

/-- T-ALU-17. -/
theorem test_subn_borrows :
    (after (withRegs base [(1, 150), (2, 30)]) 0x8127).map (fun t => (t.reg 1, t.reg 15)) = some (136, 0) := by decide

/-- S9. -/
theorem test_shr :
    (after (withRegs base [(1, 0x35)]) 0x8106).map (fun t => (t.reg 1, t.reg 15)) = some (0x1A, 1) := by decide

/-- T-ALU-19. -/
theorem test_shr_ignores_y :
    (after (withRegs base [(1, 0x80), (2, 0x55)]) 0x8126).map (fun t => (t.reg 1, t.reg 15, t.reg 2)) = some (0x40, 0, 0x55) := by decide

/-- S10. -/
theorem test_shl :
    (after (withRegs base [(1, 0xF5)]) 0x810E).map (fun t => (t.reg 1, t.reg 15)) = some (0xEA, 1) := by decide

/-- T-ALU-23. -/
theorem test_shl_no_carry :
    (after (withRegs base [(1, 0x7F)]) 0x810E).map (fun t => (t.reg 1, t.reg 15)) = some (0xFE, 0) := by decide

/-- T-ALU-24. -/
theorem test_rnd :
    (after ({ base with inputs := [{ elapsed := 0, key := none, keys := 0, rnd := 0xA7 }] }) 0xC30F).map (fun t => t.reg 3) = some 0x07 := by decide


/-! ## Index and memory (T-MEM) -/

/-- T-MEM-2. -/
theorem test_ld_i :
    (after (base) 0xAFFF).map (fun t => t.i) = some 0x0FFF := by decide

/-- T-MEM-3. -/
theorem test_add_i_past_space :
    (after ({ withRegs base [(1, 4)] with i := 0x0FFE }) 0xF11E).map (fun t => (t.i, t.reg 15)) = some (0x1002, 0) := by decide

/-- T-MEM-4. -/
theorem test_add_i_wraps :
    (after ({ withRegs base [(1, 1)] with i := 0xFFFF }) 0xF11E).map (fun t => t.i) = some 0 := by decide

/-- T-MEM-6. -/
theorem test_ld_f :
    (after (withRegs base [(0, 0xF)]) 0xF029).map (fun t => t.i) = some 75 := by decide

/-- T-MEM-7. -/
theorem test_ld_f_no_digit_goes_on :
    (after (withRegs base [(0, 0x10)]) 0xF029).map (fun t => (t.pc, t.v, t.status)) = some (0x202, (withRegs base [(0, 0x10)]).v, .none) := by decide

/-- T-MEM-10. -/
theorem test_ld_b_wraps_over_font :
    (after ({ withRegs base [(2, 100)] with i := 0x0FFF }) 0xF233).map (fun t => (t.memRead 0xFFF, t.memRead 0, t.memRead 1, t.memRead 2)) = some (1, 0, 0, 0x90) := by decide

/-- S12. -/
theorem test_ld_b_digits :
    (after ({ withRegs base [(0, 234)] with i := 0x300 }) 0xF033).map (fun t => (t.memRead 0x300, t.memRead 0x301, t.memRead 0x302)) = some (2, 3, 4) := by decide

/-- T-MEM-11. -/
theorem test_st_regs :
    (after ({ withRegs base [(0, 1), (1, 2), (2, 3), (3, 4)] with i := 0x300 }) 0xF255).map (fun t => (t.memRead 0x300, t.memRead 0x301, t.memRead 0x302, t.memRead 0x303, t.i)) = some (1, 2, 3, 0, 0x300) := by decide

/-- T-MEM-13. -/
theorem test_st_regs_wraps :
    (after ({ withRegs base [(0, 0xAA), (1, 0xBB)] with i := 0x1FFF }) 0xF155).map (fun t => (t.memRead 0xFFF, t.memRead 0, t.i)) = some (0xAA, 0xBB, 0x1FFF) := by decide

/-- T-MEM-14. -/
theorem test_ld_regs :
    (after ({ ((withRegs base [(3, 9)]).writeBytes 0x300 [2, 3, 4]) with i := 0x300 }) 0xF265).map (fun t => (t.reg 0, t.reg 1, t.reg 2, t.reg 3, t.i)) = some (2, 3, 4, 9, 0x300) := by decide

/-- T-MEM-15. -/
theorem test_ld_regs_all :
    (after (base) 0xFF65).map (fun t => t.v) = some (#v[0xF0, 0x90, 0x90, 0x90, 0xF0, 0x20, 0x60, 0x20, 0x20, 0x70, 0xF0, 0x10, 0xF0, 0x80, 0xF0, 0xF0]) := by decide


/-! ## Display (T-DSP) -/

/-- T-DSP-7. -/
theorem test_drw_collides :
    (after ({ base.memWrite 0x300 0xC0 with i := 0x300, fb := base.fb.toggle 0 0 }) 0xD121).map (fun t => (t.pixel 0 0, t.pixel 1 0, t.reg 15, t.dirty)) = some (false, true, 1, true) := by decide

/-- T-DSP-3. -/
theorem test_drw_wraps_both_axes :
    (after ({ withRegs base [(1, 62), (2, 30)] with i := 25 }) 0xD125).map (fun t => (t.pixel 1 30, t.pixel 63 0, t.pixel 1 1, t.pixel 62 1, t.reg 15)) = some (true, true, true, false, 0) := by decide

/-- T-DSP-9. -/
theorem test_cls :
    (after ({ base with fb := base.fb.toggle 63 31 }) 0x00E0).map (fun t => (t.fb, t.dirty)) = some (Display.blank, true) := by decide

/-- T-DSP-10. -/
theorem test_cls_blank :
    (after (base) 0x00E0).map (fun t => (t.pixel 0 0, t.dirty)) = some (false, false) := by decide


/-! ## Keypad and timers (T-KT) -/

/-- T-KT-1. -/
theorem test_skp_held :
    (after ({ withRegs base [(1, 4)] with inputs := [{ elapsed := 0, key := none, keys := 0x0010, rnd := 0 }] }) 0xE19E).map (fun t => t.pc) = some 0x204 := by decide

/-- T-KT-5. -/
theorem test_skp_no_key :
    (after ({ withRegs base [(1, 0x14)] with inputs := [{ elapsed := 0, key := none, keys := 0xFFFF, rnd := 0 }] }) 0xE19E).map (fun t => t.pc) = some 0x202 := by decide

/-- T-KT-3. -/
theorem test_sknp_held :
    (after ({ withRegs base [(1, 4)] with inputs := [{ elapsed := 0, key := none, keys := 0x0010, rnd := 0 }] }) 0xE1A1).map (fun t => t.pc) = some 0x202 := by decide

/-- T-KT-6. -/
theorem test_sknp_no_key :
    (after ({ withRegs base [(1, 0x14)] with inputs := [{ elapsed := 0, key := none, keys := 0xFFFF, rnd := 0 }] }) 0xE1A1).map (fun t => t.pc) = some 0x204 := by decide

/-- T-KT-7. -/
theorem test_ld_vx_dt :
    (after ({ base with dt := 9 }) 0xF407).map (fun t => (t.reg 4, t.dt)) = some (9, 9) := by decide

/-- T-KT-8. -/
theorem test_ld_vx_k :
    (after (withRegs base [(3, 8)]) 0xF30A).map (fun t => (t.awaiting, t.target, t.pc, t.reg 3)) = some (true, 3, 0x202, 8) := by decide

/-- T-KT-9. -/
theorem test_ld_dt_vx :
    (after ({ withRegs base [(3, 60)] with accDelay := 7, accSound := 5 }) 0xF315).map (fun t => (t.dt, t.accDelay, t.accSound)) = some (60, 0, 5) := by decide

/-- T-KT-10. -/
theorem test_ld_st_vx :
    (after ({ withRegs base [(3, 2)] with accSound := 5 }) 0xF318).map (fun t => (t.st, t.accSound, t.soundOn)) = some (2, 0, true) := by decide

/-! ## Frames and timers (T-TMR, T-FRM) -/

/-- The parameters of the vectors' block. -/
def block : State :=
  { base with
      cfg := { Config.initial with timerPeriod := 4, instrInterval := 2, redrawInterval := 3 },
      accInstr := 0 }

/-- T-TMR-1, its fourth frame. -/
theorem test_timer_fires_at_period :
    (afterFrame ({ block with dt := 5, accDelay := 3, awaiting := true, inputs := [tick 1] })).map (fun t => (t.dt, t.accDelay)) = some (4, 0) := by decide

/-- T-TMR-2. -/
theorem test_timer_floor :
    (afterFrame ({ block with accDelay := 3, awaiting := true, inputs := [tick 1] })).map (fun t => (t.dt, t.accDelay)) = some (0, 0) := by decide

/-- T-TMR-3. -/
theorem test_timer_once_a_frame :
    (afterFrame ({ block with dt := 5, awaiting := true, inputs := [tick 40] })).map (fun t => (t.dt, t.accDelay)) = some (4, 0) := by decide

/-- T-TMR-4. -/
theorem test_timers_independent :
    (afterFrame ({ block with dt := 5, st := 5, accDelay := 3, inputs := [tick 1] })).map (fun t => (t.dt, t.st, t.accDelay, t.accSound)) = some (4, 5, 0, 1) := by decide

/-- T-TMR-5. -/
theorem test_sound_falls :
    (afterFrame ({ block with st := 1, accSound := 3, inputs := [tick 1] })).map (fun t => (t.st, t.soundOn)) = some (0, false) := by decide

/-- T-FRM-1. -/
theorem test_frame_accumulates :
    (afterFrame ({ block with inputs := [tick 1] })).map (fun t => (t.accInstr, t.pc)) = some (1, 0x200) := by decide

/-- T-FRM-2. -/
theorem test_frame_executes :
    (afterFrame ({ block with accInstr := 1, inputs := [tick 1] })).map (fun t => (t.accInstr, t.pc)) = some (0, 0x202) := by decide

/-- T-FRM-3. -/
theorem test_frame_waits :
    (afterFrame ({ block with accInstr := 1, awaiting := true, inputs := [tick 1] })).map (fun t => (t.accInstr, t.pc, t.accDelay)) = some (1, 0x200, 1) := by decide

/-- T-FRM-4. -/
theorem test_key_above_15_ignored :
    (afterFrame ({ block with awaiting := true, target := 3, inputs := [tick 1 (some 0x1F)] })).map (fun t => (t.reg 3, t.awaiting)) = some (0, true) := by decide

/-- T-FRM-5. -/
theorem test_key_delivered :
    (afterFrame ({ block with accInstr := 1, awaiting := true, target := 3, inputs := [tick 1 (some 7)] })).map (fun t => (t.reg 3, t.awaiting, t.accInstr, t.pc)) = some (7, false, 1, 0x200) := by decide

/-- T-FRM-6. -/
theorem test_halted_frame :
    (afterFrame ({ block with status := .stackOverflow, dt := 5, accDelay := 3, inputs := [tick 10 (some 7)] })).map (fun t => (t.dt, t.accDelay, t.accInstr, t.pc, t.status)) = some (5, 3, 0, 0x200, .stackOverflow) := by decide

/-- T-FRM-7. -/
theorem test_render :
    (afterFrame ({ block with dirty := true, accRedraw := 2, inputs := [tick 1] })).map (fun t => (t.render, t.dirty, t.accRedraw)) = some (true, false, 0) := by decide

/-- T-FRM-8. -/
theorem test_no_render_when_clean :
    (afterFrame ({ block with accRedraw := 2, inputs := [tick 1] })).map (fun t => (t.render, t.accRedraw)) = some (false, 3) := by decide

/-- T-FRM-9. -/
theorem test_render_in_the_frame_of_the_draw :
    (after { block with accRedraw := 9 } 0xD125).map (fun t => (t.render, t.dirty, t.accRedraw)) =
      some (true, false, 0) := by decide

/-! ## Load and reset -/

/-- The first line of P8: the empty program, from reset, runs SYS and halts. -/
theorem test_empty_program_halts :
    (afterFrame { State.reset with inputs := [tick 1] }).map (fun t => (t.diag, t.pc, t.status)) =
      some (some 0, 0x202, .outOfBounds) := by decide

/-- R195, T-DEC-11: a loaded program lies at 0x200 and is fetched high byte first. -/
theorem test_load_places_program :
    (State.reset.loaded [0x12, 0x34]).fetchWord = 0x1234 ∧
      (State.reset.loaded [0x12, 0x34]).progEnd = 0x202 := by decide

/-- R197: the glyph of F. -/
theorem test_font_glyph_F : State.reset.readBytes 75 5 = [0xF0, 0x80, 0xF0, 0x80, 0x80] := by decide

/-- Writing what an unlisted address reads as takes the entry out of the list again (log 8). -/
theorem test_memory_canonical :
    ((State.reset.memWrite 0x300 7).memWrite 0x1300 0).mem = [] := by decide

/-- The codes of R28. -/
theorem test_status_codes :
    [Status.none, .stackOverflow, .stackUnderflow, .outOfBounds, .arithmeticOverflow].map Status.code =
      [0, 1, 2, 3, 4] := by decide

/-! ## Witnesses: for each obligation with hypotheses, a state and operands that meet them -/

/-- A ready state whose word at `PC` is the one given. -/
def armed (w : Nat) : State := base.withFetchWord 16 w

theorem test_witness_DecodeOfEncodedInstruction :
    (Instr.sys 0x123).wf = true ∧ (Instr.drw 15 15 15).wf = true := by decide

theorem test_witness_CanonicalWordOfDecodedWord :
    decodeWord 0x5127 = .ok (.seReg 1 2) ∧ decodeWord 0x0FEE = .ok .ret := by decide

theorem test_witness_DecoderAgreesWithOpcodeTable :
    (⟨"CLS", 0xF0FF, 0x00E0⟩ : OpRow) ∈ opcodeRows ∧
      (⟨"CLS", 0xF0FF, 0x00E0⟩ : OpRow).hits 0x05E0 = true := by decide

theorem test_witness_StepRunsDecodedInstruction :
    ∃ (s : State) (i : Instr), s.ready ∧ decodeWord s.fetchWord = .ok i :=
  ⟨armed 0x8124, .addReg 1 2, by decide, by decide⟩

theorem test_witness_UnrecognisedWordIsSkipped :
    ∃ (s : State) (e : Reject), s.ready ∧ decodeWord s.fetchWord = .error e :=
  ⟨armed 0xFFFF, .unrecognisedF 0xFFFF, by decide, by decide⟩

/-- The clauses: just outside on both sides, just inside on both sides, halted by the word itself. -/
theorem test_witness_BoundsCheckAfterEveryWord :
    (∃ s u, executeWord s.fetchWord s = .next u ∧ u.status = .none ∧ u.pc = 0x1FF ∧
      ¬ u.pcInProgram) ∧
    (∃ s u, executeWord s.fetchWord s = .next u ∧ u.status = .none ∧ u.pc.toNat = u.progEnd.toNat ∧
      ¬ u.pcInProgram) ∧
    (∃ s u, executeWord s.fetchWord s = .next u ∧ u.pc = 0x200 ∧ u.pcInProgram) ∧
    (∃ s u, executeWord s.fetchWord s = .next u ∧ u.pc.toNat + 1 = u.progEnd.toNat ∧
      u.pcInProgram) ∧
    (∃ s u, executeWord s.fetchWord s = .next u ∧ u.status ≠ .none) :=
  ⟨⟨armed 0x11FF, _, rfl, by decide, by decide, by decide⟩,
   ⟨{ armed 0x1300 with progEnd := 0x300 }, _, rfl, by decide, by decide, by decide⟩,
   ⟨armed 0x1200, _, rfl, by decide, by decide⟩,
   ⟨{ armed 0x12FF with progEnd := 0x300 }, _, rfl, by decide, by decide⟩,
   ⟨armed 0x00EE, _, rfl, by decide⟩⟩

theorem test_witness_RaiseSetsStatusOnce :
    (∃ s : State, s.status = .none) ∧ ∃ s : State, s.status ≠ .none :=
  ⟨⟨base, rfl⟩, ⟨{ base with status := .stackOverflow }, by decide⟩⟩

/-- The clauses: one frame of a halted machine, and a run of no and of two frames from it. -/
theorem test_witness_HaltedFrameChangesNothing :
    (∃ s : State, s.halted) ∧
    (∃ s t : State, s.halted ∧ core.run 0 s = .next t) ∧
    (∃ s t : State, s.halted ∧ core.run 2 s = .next t) :=
  ⟨⟨{ base with status := .stackOverflow }, by decide⟩,
   ⟨{ base with status := .stackOverflow }, _, by decide, rfl⟩,
   ⟨{ base with status := .outOfBounds, inputs := [tick 1 (some 7)] }, _, by decide, rfl⟩⟩

/-- The clauses: the greatest key, no key, the least code that is no key. -/
theorem test_witness_WaitingFrameDeliversKey :
    (∃ (s : State) (k : Byte), s.waiting ∧ s.frameInput.key = some k ∧ k.toNat = 15) ∧
    (∃ s : State, s.waiting ∧ s.frameInput.key = none) ∧
    (∃ (s : State) (k : Byte), s.waiting ∧ s.frameInput.key = some k ∧ k.toNat = 16) :=
  ⟨⟨{ base with awaiting := true, inputs := [tick 1 (some 15)] }, 15, by decide, by decide, by decide⟩,
   ⟨{ base with awaiting := true, inputs := [tick 1] }, by decide, by decide⟩,
   ⟨{ base with awaiting := true, inputs := [tick 1 (some 16)] }, 16, by decide, by decide, by decide⟩⟩

theorem test_witness_IdleFrameOnlyAccumulates :
    ∃ s : State, s.idle ∧ s.accInstr + s.frameInput.elapsed + 1 = s.cfg.instrInterval :=
  ⟨{ block with inputs := [tick 1] }, by decide, by decide⟩

/-- The three kinds of frame, and both sides of both boundaries. -/
theorem test_witness_TimersCountDownInEveryFrame :
    (∃ s t, s.waiting ∧ step s = .next t ∧
      s.accDelay + s.frameInput.elapsed = s.cfg.timerPeriod ∧
      s.accSound + s.frameInput.elapsed + 1 = s.cfg.timerPeriod) ∧
    (∃ s t, s.idle ∧ step s = .next t ∧
      s.accDelay + s.frameInput.elapsed + 1 = s.cfg.timerPeriod ∧
      s.accSound + s.frameInput.elapsed = s.cfg.timerPeriod) ∧
    (∃ s t : State, s.ready ∧ t = s.beforeInstruction ∧
      s.accDelay + s.frameInput.elapsed = s.cfg.timerPeriod) :=
  ⟨⟨{ block with accDelay := 3, accSound := 2, awaiting := true, inputs := [tick 1] }, _,
      by decide, rfl, by decide, by decide⟩,
   ⟨{ block with accDelay := 2, accSound := 3, inputs := [tick 1] }, _,
      by decide, rfl, by decide, by decide⟩,
   ⟨{ block with accDelay := 3, accInstr := 1, inputs := [tick 1] }, _, by decide, rfl, by decide⟩⟩

/-- The clauses: a render, a due redraw with nothing to show, a redraw not yet due; a waiting and an idle
frame at the interval, dirty and clean; a ready frame whose word draws on a clean display. -/
theorem test_witness_RedrawCadenceOfEveryFrame :
    (∃ s t, s.status = .none ∧ step s = .next t ∧ t.render = true) ∧
    (∃ s t, s.status = .none ∧ step s = .next t ∧ t.render = false ∧
      s.cfg.redrawInterval = s.accRedraw + s.frameInput.elapsed) ∧
    (∃ s t, s.status = .none ∧ step s = .next t ∧ t.render = false ∧ s.dirty = true) ∧
    (∃ s t, s.status = .none ∧ step s = .next t ∧ s.waiting ∧ s.dirty = true ∧
      s.cfg.redrawInterval = s.accRedraw + s.frameInput.elapsed) ∧
    (∃ s t, s.status = .none ∧ step s = .next t ∧ s.idle ∧ s.dirty = false ∧
      s.cfg.redrawInterval = s.accRedraw + s.frameInput.elapsed) ∧
    (∃ s t u, s.status = .none ∧ step s = .next t ∧ s.ready ∧ s.dirty = false ∧ t.render = true ∧
      executeWord s.fetchWord s.beforeInstruction = .next u) :=
  ⟨⟨{ block with dirty := true, accRedraw := 2, inputs := [tick 1] }, _, by decide, rfl, by decide⟩,
   ⟨{ block with accRedraw := 2, inputs := [tick 1] }, _, by decide, rfl, by decide, by decide⟩,
   ⟨{ block with dirty := true, accRedraw := 1, inputs := [tick 1] }, _,
      by decide, rfl, by decide, by decide⟩,
   ⟨{ block with awaiting := true, dirty := true, accRedraw := 2, inputs := [tick 1] }, _,
      by decide, rfl, by decide, by decide, by decide⟩,
   ⟨{ block with accRedraw := 2, inputs := [tick 1] }, _,
      by decide, rfl, by decide, by decide, by decide⟩,
   ⟨State.withFetchWord { block with accRedraw := 9 } 16 0xD125, _, _,
      by decide, rfl, by decide, by decide, by decide, rfl⟩⟩

theorem test_witness_OnePeriodIsOneDecrement :
    ∃ (s : State) (now later : List FrameInput), s.cfg.wf ∧ s.waiting ∧ s.accDelay = 0 ∧
      s.inputs = now ++ later ∧ (∀ inp ∈ now, ∀ k, inp.key = some k → 15 < k.toNat) ∧
      (now.map (·.elapsed)).sum = s.cfg.timerPeriod :=
  ⟨{ block with dt := 5, awaiting := true, inputs := [tick 1, tick 2 (some 16), tick 1] },
   [tick 1, tick 2 (some 16), tick 1], [], by decide, by decide, by decide, by decide,
   by simp [tick], by decide⟩

/-- The clauses: a run that ends at a chosen `PC` (of no frame, and of two); a self-jump at the first and
at the last address of the program. -/
theorem test_witness_EveryStepAnswersNext :
    (∃ (s : State) (stop : Word), s.endsAt stop 0) ∧
    (∃ (s : State) (stop : Word), s.endsAt stop 2 ∧ stop ≠ s.pc) ∧
    (∃ s : State, s.status = .none ∧ s.awaiting = false ∧ s.pcInProgram ∧ s.selfJump ∧
      s.pc.toNat = 0x200) ∧
    (∃ s : State, s.status = .none ∧ s.awaiting = false ∧ s.pcInProgram ∧ s.selfJump ∧
      s.pc.toNat + 1 = s.progEnd.toNat) :=
  ⟨⟨base, 0x200, base, rfl, by decide⟩,
   ⟨{ armed 0x1206 with inputs := [tick 1, tick 1] }, 0x208,
     ⟨_, rfl, by decide⟩, by decide⟩,
   ⟨armed 0x1200, by decide, by decide, by decide, ⟨0x200, by decide, by decide⟩, by decide⟩,
   ⟨{ State.withFetchWord { base with pc := 0x2FF } 16 0x12FF with progEnd := 0x300 },
     by decide, by decide, by decide, ⟨0x2FF, by decide, by decide⟩, by decide⟩⟩

/-- A machine that waits, and one that halts, at the chosen `PC` is at no end (R100, R189). -/
theorem test_no_end_waiting_or_halted :
    ¬ ({ base with awaiting := true } : State).atEnd 0x200 ∧
      ¬ ({ base with status := .outOfBounds } : State).atEnd 0x200 := by decide

/-- A running machine with a program in memory, a call on the stack and a wait for a key. -/
theorem test_witness_StepKeepsInvariant : ∃ s t : State, s.Inv ∧ step s = .next t :=
  ⟨{ (block.memWrite 0x200 0xF3) with
      sp := 1, stack := base.stack.set 0 0x204, awaiting := true, dirty := true,
      inputs := [tick 1 (some 7)] }, _,
   ⟨by decide, by decide, by decide, by decide, by decide, by decide, by decide, by decide,
     by decide, by decide, by decide, by decide, by decide⟩, rfl⟩

/-- The greatest program, the empty one, the least that is too long, and an address of each range. -/
theorem test_witness_LoadSetsWholeStateOrRefuses :
    (∃ prog : List Byte, prog.length = 3584) ∧ ([] : List Byte).length ≤ 3584 ∧
      (∃ prog : List Byte, prog.length = 3585) ∧
      0 < [(0x12 : Byte), 0x34].length ∧ (79 < 80) ∧ (80 ≤ 80 ∧ 80 < 0x200) ∧
      (0x200 + [(0x12 : Byte), 0x34].length ≤ 0x202 ∧ 0x202 < 4096) ∧ State.reset.cfg.wf :=
  ⟨⟨List.replicate 3584 0, List.length_replicate⟩, by decide,
   ⟨List.replicate 3585 0, List.length_replicate⟩, by decide⟩

theorem test_witness_FrameIsInterleaving : ∃ s t : State, step s = .next t := ⟨armed 0x2300, _, rfl⟩

theorem test_witness_OnlyKeySkipsAndRandomReadInputs :
    ∃ (i : Instr) (s t : State), (∀ x, i ≠ .skp x) ∧ (∀ x, i ≠ .sknp x) ∧
      (∀ x nn, i ≠ .rnd x nn) ∧ exec i s = .next t :=
  ⟨.ldVxK 3, base, _, by simp, by simp, by simp, rfl⟩

/-- The clauses: a wait starts, a wait ends, a wait goes on. -/
theorem test_witness_WaitStartsAndEndsOnlyAsNamed :
    (∃ s t, step s = .next t ∧ s.awaiting = false ∧ t.awaiting = true) ∧
    (∃ s t, step s = .next t ∧ s.awaiting = true ∧ t.awaiting = false) ∧
    (∃ s t, step s = .next t ∧ s.awaiting = true ∧ t.awaiting = true) :=
  ⟨⟨armed 0xF30A, _, rfl, by decide, by decide⟩,
   ⟨{ base with awaiting := true, inputs := [tick 1 (some 15)] }, _, rfl, by decide, by decide⟩,
   ⟨{ base with awaiting := true, inputs := [tick 1 (some 16)] }, _, rfl, by decide, by decide⟩⟩

/-- The clauses: each of the three halts. -/
theorem test_witness_HaltsOnlyAsNamed :
    (∃ s t, s.status = .none ∧ step s = .next t ∧ t.status = .stackOverflow) ∧
    (∃ s t, s.status = .none ∧ step s = .next t ∧ t.status = .stackUnderflow) ∧
    (∃ s t, s.status = .none ∧ step s = .next t ∧ t.status = .outOfBounds) :=
  ⟨⟨{ armed 0x2300 with sp := 16 }, _, by decide, rfl, by decide⟩,
   ⟨armed 0x00EE, _, by decide, rfl, by decide⟩,
   ⟨armed 0x11FF, _, by decide, rfl, by decide⟩⟩

/-- The clauses: `DIRTY` rises by DRW and by CLS, and falls in a rendering frame. -/
theorem test_witness_DirtyRisesByDrawingFallsByRendering :
    (∃ s t, step s = .next t ∧ s.dirty = false ∧ t.dirty = true) ∧
    (∃ s t, step s = .next t ∧ s.dirty = false ∧ t.dirty = true ∧
      decodeWord s.fetchWord = .ok .cls) ∧
    (∃ s t, step s = .next t ∧ s.dirty = true ∧ t.dirty = false) :=
  ⟨⟨armed 0xD125, _, rfl, by decide, by decide⟩,
   ⟨{ armed 0x00E0 with fb := base.fb.toggle 3 4 }, _, rfl, by decide, by decide, by decide⟩,
   ⟨{ block with dirty := true, accRedraw := 2, inputs := [tick 1] }, _, rfl, by decide, by decide⟩⟩

/-- A register below and one above the destinations; `VF` of an instruction that writes no flag. -/
theorem test_witness_OnlyDestinationsAndFlagChange :
    (∃ (i : Instr) (s t : State) (r : RegNum), exec i s = .next t ∧ i.writesReg r = false ∧
      (r = regF → i.writesFlag = false) ∧ r = 3 ∧ i = .ldRegs 2) ∧
    (∃ (i : Instr) (s t : State) (r : RegNum), exec i s = .next t ∧ i.writesReg r = false ∧
      (r = regF → i.writesFlag = false) ∧ r = regF ∧ i = .addI 1) :=
  ⟨⟨.ldRegs 2, base, _, 3, rfl, by decide, by decide, rfl, rfl⟩,
   ⟨.addI 1, base, _, regF, rfl, by decide, by decide, rfl, rfl⟩⟩

theorem test_witness_FlagIsZeroOrOne :
    ∃ (i : Instr) (s t : State), i.writesFlag = true ∧ exec i s = .next t :=
  ⟨.addReg 15 1, withRegs base [(15, 200), (1, 100)], _, rfl, rfl⟩

/-- The address after the last byte that LD_B stores, across the wrap; any address of a compare. -/
theorem test_witness_OnlyStoredBytesChange :
    (∃ (i : Instr) (s t : State) (a : Nat), exec i s = .next t ∧
      (∀ k < i.storedBytes, a % 4096 ≠ s.effAddr k) ∧ i = .ldB 2 ∧ a = 2) ∧
    (∃ (i : Instr) (s t : State) (a : Nat), exec i s = .next t ∧
      (∀ k < i.storedBytes, a % 4096 ≠ s.effAddr k) ∧ i = .seReg 1 2 ∧ a = 0) :=
  ⟨⟨.ldB 2, { base with i := 0x0FFF }, _, 2, rfl, by decide, rfl, rfl⟩,
   ⟨.seReg 1 2, base, _, 0, rfl, by decide, rfl, rfl⟩⟩

/-- The clauses: neither CALL nor RET; CALL, and an entry other than the one at `SP`. -/
theorem test_witness_OnlyCallAndRetChangeStack :
    (∃ (i : Instr) (s t : State), exec i s = .next t ∧ (∀ nnn, i ≠ .call nnn) ∧ i ≠ .ret) ∧
    (∃ (s t : State) (nnn : Addr) (k : Fin 16), exec (.call nnn) s = .next t ∧ k.val ≠ s.sp.val) :=
  ⟨⟨.cls, base, _, rfl, by simp, by simp⟩,
   ⟨{ base with sp := 15 }, _, 0x300, 14, rfl, by decide⟩⟩

theorem test_witness_OnlyIndexInstructionsChangeIndex :
    ∃ (i : Instr) (s t : State), exec i s = .next t ∧ (∀ nnn, i ≠ .ldI nnn) ∧
      (∀ x, i ≠ .addI x) ∧ (∀ x, i ≠ .ldF x) :=
  ⟨.stRegs 15, base, _, rfl, by simp, by simp, by simp⟩

/-- The clauses: not LD_DT_VX, not LD_ST_VX. -/
theorem test_witness_OnlyTimerLoadsChangeTimers :
    (∃ (i : Instr) (s t : State), exec i s = .next t ∧ (∀ x, i ≠ .ldDtVx x) ∧ i = .ldStVx 3) ∧
    (∃ (i : Instr) (s t : State), exec i s = .next t ∧ (∀ x, i ≠ .ldStVx x) ∧ i = .ldDtVx 3) :=
  ⟨⟨.ldStVx 3, base, _, rfl, by simp, rfl⟩, ⟨.ldDtVx 3, base, _, rfl, by simp, rfl⟩⟩

/-- The clauses: neither DRW nor CLS; a DRW on a dirty display. -/
theorem test_witness_OnlyDrawAndClearChangeDisplay :
    (∃ (i : Instr) (s t : State), exec i s = .next t ∧ (∀ x y n, i ≠ .drw x y n) ∧ i ≠ .cls) ∧
    (∃ (i : Instr) (s t : State), exec i s = .next t ∧ s.dirty = true ∧ i = .drw 1 2 0) :=
  ⟨⟨.ldRegs 0, base, _, rfl, by simp, by simp⟩,
   ⟨.drw 1 2 0, { base with dirty := true }, _, rfl, rfl, rfl⟩⟩

/-- The clauses: neither CALL nor RET; a halted state; not LD_VX_K; not SYS. -/
theorem test_witness_ControlStateChangesOnlyAsNamed :
    (∃ (i : Instr) (s t : State), exec i s = .next t ∧ (∀ nnn, i ≠ .call nnn) ∧ i ≠ .ret ∧
      (∀ x, i ≠ .ldVxK x) ∧ (∀ nnn, i ≠ .sys nnn)) ∧
    (∃ (i : Instr) (s t : State), exec i s = .next t ∧ s.status ≠ .none ∧ i = .ret) :=
  ⟨⟨.jp 0x300, base, _, rfl, by simp, by simp, by simp, by simp⟩,
   ⟨.ret, { base with status := .outOfBounds }, _, rfl, by decide, rfl⟩⟩

/-- The last clause: the greatest address below the program, and the bound itself. -/
theorem test_witness_JumpSetsCounterToOperand :
    (base.status = .none ∧ (0x1FF : Addr).toNat < 0x200) ∧
    (∃ s : State, s.status = .none ∧ s.progEnd.toNat ≤ (0x300 : Addr).toNat) :=
  ⟨by decide, ⟨{ base with progEnd := 0x300 }, by decide⟩⟩

/-- The clauses: the last free entry, the first one, a full stack, of a running and a halted machine. -/
theorem test_witness_CallPushesItsAddressOrOverflows :
    (∃ s : State, s.sp.val = (15 : Fin 16).val) ∧ (∃ s : State, s.sp.val = (0 : Fin 16).val) ∧
    (∃ s : State, s.sp.val = 16 ∧ s.status = .none) ∧
    (∃ s : State, s.sp.val = 16 ∧ s.status ≠ .none) :=
  ⟨⟨{ base with sp := 15 }, by decide⟩, ⟨base, by decide⟩, ⟨{ base with sp := 16 }, by decide⟩,
   ⟨{ base with sp := 16, status := .outOfBounds }, by decide⟩⟩

/-- The clauses: one entry, a full stack, an empty one, of a running and a halted machine. -/
theorem test_witness_ReturnContinuesAfterCallOrUnderflows :
    (∃ s : State, s.sp.val = (0 : Fin 16).val + 1) ∧ (∃ s : State, s.sp.val = (15 : Fin 16).val + 1) ∧
    (∃ s : State, s.sp.val = 0 ∧ s.status = .none) ∧
    (∃ s : State, s.sp.val = 0 ∧ s.status ≠ .none) :=
  ⟨⟨{ base with sp := 1 }, by decide⟩, ⟨{ base with sp := 16 }, by decide⟩, ⟨base, by decide⟩,
   ⟨{ base with status := .outOfBounds }, by decide⟩⟩

theorem test_witness_SkipsCompareWithImmediate :
    (∃ s : State, s.reg 10 = 5) ∧ ∃ s : State, s.reg 10 ≠ 5 :=
  ⟨⟨withRegs base [(10, 5)], by decide⟩, ⟨base, by decide⟩⟩

theorem test_witness_SkipsCompareRegisters :
    (∃ s : State, s.reg 1 = s.reg 2) ∧ ∃ s : State, s.reg 1 ≠ s.reg 2 :=
  ⟨⟨base, by decide⟩, ⟨withRegs base [(1, 7)], by decide⟩⟩

/-- A result register that is not `VF`, a register that is neither, and `VF` beside a destination: the
clauses of AddSetsSumAndCarry, SubtractionsSetDifferenceAndNoBorrow, ShiftsMoveOnePlace,
DrawTogglesSpritePixels, LoadsCopyByte, AddImmediateWraps, BitwiseOperationsWorkBitByBit, RandomIsMasked
and TimerLoadsAndReads. -/
theorem test_witness_result_and_other_registers :
    (1 : RegNum) ≠ regF ∧ (2 : RegNum) ≠ 1 ∧ (2 : RegNum) ≠ regF ∧ regF ≠ (1 : RegNum) := by decide

/-- SYS with and without the diagnostic. -/
theorem test_witness_SysIsConsumed :
    (∃ s : State, s.cfg.sysDiag = true) ∧ ∃ s : State, s.cfg.sysDiag = false :=
  ⟨⟨base, by decide⟩, ⟨{ base with cfg := { quiet with sysDiag := false } }, by decide⟩⟩

/-- The boundary of the digits. -/
theorem test_witness_FontAddressOfDigit :
    ∃ s : State, (s.reg 0).toNat = 15 := ⟨withRegs base [(0, 15)], by decide⟩

/-- The registers at both ends of the range, and the first outside it: StoreRegistersUpToX and
LoadRegistersUpToX. -/
theorem test_witness_register_ranges :
    (0 : RegNum).toNat ≤ (2 : RegNum).toNat ∧ (2 : RegNum).toNat ≤ (2 : RegNum).toNat ∧
      (2 : RegNum).toNat < (3 : RegNum).toNat := by decide

/-- Addresses outside the stored bytes: StoreRegistersUpToX and BcdStoresThreeDigits. -/
theorem test_witness_addresses_outside_stores :
    (∀ k ≤ (2 : RegNum).toNat, 0x303 % 4096 ≠ State.effAddr { base with i := 0x300 } k) ∧
      ∀ k < 3, 0x2FF % 4096 ≠ State.effAddr { base with i := 0x300 } k := by decide

/-- The state of T-DSP-3: pixel (0, 30) is hit, past the right edge; pixel (2, 30) is not. -/
def edge : State := { withRegs base [(1, 62), (2, 30)] with i := 25 }

theorem edge_hit : edge.spriteHits 1 2 5 0 30 := ⟨0, by decide, 2, by decide, by decide, by decide, by decide⟩

/-- The clauses of the draw: a pixel hit, one not hit, a collision, no collision. -/
theorem test_witness_DrawTogglesSpritePixels :
    edge.spriteHits 1 2 5 0 30 ∧ ¬ edge.spriteHits 1 2 5 2 30 ∧
    (∃ s : State, ∃ px < 64, ∃ py < 32, s.spriteHits 1 2 5 px py ∧ s.pixel px py = true) ∧
    (∀ px < 64, ∀ py < 32, edge.spriteHits 1 2 5 px py → edge.pixel px py = false) := by
  refine ⟨edge_hit, ?_, ⟨{ edge with fb := base.fb.toggle 0 30 }, 0, by decide, 30, by decide,
    edge_hit, by decide⟩, ?_⟩
  · unfold State.spriteHits; decide
  · intro px _ py _ _
    exact Display.pixel_blank px py

theorem test_witness_DrawingTwiceRestoresDisplay :
    ∃ (x y : RegNum) (n : Nibble) (s t u : State), x ≠ regF ∧ y ≠ regF ∧
      exec (.drw x y n) s = .next t ∧ exec (.drw x y n) t = .next u ∧
      ∃ px < 64, ∃ py < 32, s.spriteHits x y n px py ∧ s.pixel px py = false :=
  ⟨1, 2, 5, edge, _, _, by decide, by decide, rfl, rfl, 0, by decide, 30, by decide, edge_hit, by decide⟩

/-- The clauses: the greatest key, held; the greatest key, not held; the least value that names none. -/
theorem test_witness_KeySkipsReadHeldKeys :
    (∃ s : State, (s.reg 1).toNat = 15 ∧ s.frameInput.keys.getLsbD (s.reg 1).toNat = true) ∧
    (∃ s : State, (s.reg 1).toNat = 15 ∧ s.frameInput.keys.getLsbD (s.reg 1).toNat = false) ∧
    (∃ s : State, (s.reg 1).toNat = 16) :=
  ⟨⟨{ withRegs base [(1, 15)] with inputs := [{ elapsed := 0, key := none, keys := 0x8000, rnd := 0 }] },
      by decide⟩,
   ⟨{ withRegs base [(1, 15)] with inputs := [tick 0] }, by decide⟩,
   ⟨withRegs base [(1, 16)], by decide⟩⟩

end Sys2Proof.Tests
end

section
/-! PROOFS. The frame of the 35 instructions, one lemma a piece of the state (10_state.md R20 to R35): which
instructions write it and what they leave there. Each lemma names the instructions that write the piece; for
the others the field lemmas of Laws/State close the case. -/

namespace Sys2Proof.Machine

variable {s t : State} {i : Instr}

/-! ### The general registers (10_state.md R20, R21) -/

/-- DRW writes `VF` alone among the registers. -/
theorem exec_drw_reg {x y r : RegNum} {n : Nibble} (h : exec (.drw x y n) s = .next t)
    (hr : r ≠ regF) : t.reg r = s.reg r := by
  cases next_inj h
  simp [State.reg_setReg_of_ne, hr]

/-- LD_REGS leaves the registers above `V[x]`. -/
theorem exec_ldRegs_reg {x r : RegNum} (h : exec (.ldRegs x) s = .next t) (hr : x.toNat < r.toNat) :
    t.reg r = s.reg r := by
  cases next_inj h
  have hx := x.isLt
  rw [State.reg_advance, State.reg_setRegsFrom _ _ 0 (by rw [State.loadAtIndex_length]; omega),
    dif_neg (by rw [State.loadAtIndex_length]; omega)]

/-- An instruction leaves every register that is neither a destination nor the flag it writes. -/
theorem exec_reg_of_not_written {r : RegNum} (h : exec i s = .next t) (hd : i.writesReg r = false)
    (hf : r = regF → i.writesFlag = false) : t.reg r = s.reg r := by
  cases i with
  | drw x y n => exact exec_drw_reg h (by simpa [Instr.writesFlag] using hf)
  | ldRegs x => exact exec_ldRegs_reg h (by simpa [Instr.writesReg] using hd)
  | addReg x _ | sub x _ | subn x _ | shr x | shl x =>
    have hx : r ≠ x := by simpa [Instr.writesReg] using hd
    have hr : r ≠ regF := by simpa [Instr.writesFlag] using hf
    cases next_inj h
    exact State.reg_setResultFlag_of_ne _ _ _ hx hr
  | ldImm x _ | addImm x _ | rnd x _ | ldReg x _ | orReg x _ | andReg x _ | xorReg x _ | ldVxDt x =>
    have hx : r ≠ x := by simpa [Instr.writesReg] using hd
    cases next_inj h
    exact State.reg_setReg_of_ne _ _ hx
  | _ => cases next_inj h; simp

/-- What a flag-writing instruction leaves in `VF` is a flag value, whatever its destination: the flag is
written last (42_load_alu.md R138). -/
theorem exec_flag (h : exec i s = .next t) (hf : i.writesFlag = true) :
    ∃ b, t.reg regF = flagByte b := by
  cases i with
  | addReg _ _ | sub _ _ | subn _ _ | shr _ | shl _ =>
    cases next_inj h
    exact ⟨_, State.reg_setResultFlag_flag ..⟩
  | drw _ _ _ =>
    cases next_inj h
    exact ⟨_, State.reg_setReg_self ..⟩
  | _ => cases hf

/-! ### The return stack (10_state.md R24, R25) -/

/-- A push writes its own address at the entry `SP`, if there is one. -/
theorem State.pushAndJump_stack (s : State) (w : Word) :
    (s.pushAndJump w).stack =
      if h : s.sp.val < 16 then s.stack.set s.sp.val s.pc else s.stack := by
  unfold State.pushAndJump
  split
  · rfl
  · exact s.raise_stack _

theorem State.pushAndJump_stack_of_ne (s : State) (w : Word) {k : Fin 16} (hk : k.val ≠ s.sp.val) :
    (s.pushAndJump w).stack[k] = s.stack[k] := by
  simp only [State.pushAndJump_stack]
  split
  · exact Vector.getElem_set_ne _ _ (Ne.symm hk)
  · rfl

theorem exec_stack_of_not_call (h : exec i s = .next t) (hc : ∀ nnn, i ≠ .call nnn) :
    t.stack = s.stack := by
  cases i with
  | call nnn => exact absurd rfl (hc nnn)
  | _ => cases next_inj h; simp

theorem exec_sp_of_not_linkage (h : exec i s = .next t) (hc : ∀ nnn, i ≠ .call nnn) (hr : i ≠ .ret) :
    t.sp = s.sp := by
  cases i with
  | call nnn => exact absurd rfl (hc nnn)
  | ret => exact absurd rfl hr
  | _ => cases next_inj h; simp

/-! ### The index register (10_state.md R23) -/

theorem exec_i_of_not_index (h : exec i s = .next t) (hl : ∀ nnn, i ≠ .ldI nnn)
    (ha : ∀ x, i ≠ .addI x) (hf : ∀ x, i ≠ .ldF x) : t.i = s.i := by
  cases i with
  | ldI nnn => exact absurd rfl (hl nnn)
  | addI x => exact absurd rfl (ha x)
  | ldF x => exact absurd rfl (hf x)
  | _ => cases next_inj h; simp

/-! ### The timers and their accumulators (10_state.md R26, R27, R30) -/

theorem exec_delay_of_not_load (h : exec i s = .next t) (hl : ∀ x, i ≠ .ldDtVx x) :
    t.dt = s.dt ∧ t.accDelay = s.accDelay := by
  cases i with
  | ldDtVx x => exact absurd rfl (hl x)
  | _ => cases next_inj h; simp

theorem exec_sound_of_not_load (h : exec i s = .next t) (hl : ∀ x, i ≠ .ldStVx x) :
    t.st = s.st ∧ t.accSound = s.accSound := by
  cases i with
  | ldStVx x => exact absurd rfl (hl x)
  | _ => cases next_inj h; simp

/-! ### The display (10_state.md R31, R32) -/

theorem exec_display_of_not_draw (h : exec i s = .next t) (hd : ∀ x y n, i ≠ .drw x y n)
    (hc : i ≠ .cls) : t.fb = s.fb ∧ t.dirty = s.dirty := by
  cases i with
  | drw x y n => exact absurd rfl (hd x y n)
  | cls => exact absurd rfl hc
  | _ => cases next_inj h; simp

/-- No instruction clears `DIRTY`: DRW and CLS add a mark to it by `or`. -/
theorem exec_keeps_dirty (h : exec i s = .next t) (hs : s.dirty = true) : t.dirty = true := by
  cases i with
  | drw _ _ _ | cls => cases next_inj h; simp [hs]
  | _ => cases next_inj h; simpa using hs

/-! ### The status, the wait and the diagnostic (10_state.md R28, R29, R37) -/

theorem exec_status_of_not_linkage (h : exec i s = .next t) (hc : ∀ nnn, i ≠ .call nnn)
    (hr : i ≠ .ret) : t.status = s.status := by
  cases i with
  | call nnn => exact absurd rfl (hc nnn)
  | ret => exact absurd rfl hr
  | _ => cases next_inj h; simp

/-- A halt condition stays: `raise` does nothing when one is set (60_exceptions.md R166). -/
theorem exec_status_of_halted (h : exec i s = .next t) (hs : s.halted) : t.status = s.status := by
  cases i with
  | call _ | ret => cases next_inj h; simp [hs]
  | _ => cases next_inj h; simp

theorem exec_wait_of_not_ldVxK (h : exec i s = .next t) (hk : ∀ x, i ≠ .ldVxK x) :
    t.awaiting = s.awaiting ∧ t.target = s.target := by
  cases i with
  | ldVxK x => exact absurd rfl (hk x)
  | _ => cases next_inj h; simp

theorem exec_diag_of_not_sys (h : exec i s = .next t) (hy : ∀ nnn, i ≠ .sys nnn) :
    t.diag = s.diag := by
  cases i with
  | sys nnn => exact absurd rfl (hy nnn)
  | _ => cases next_inj h; simp

end Sys2Proof.Machine
end

section
/-! PROOFS. The obligations about single instructions: O27, O28 and O30 to O34. -/

open Sys2Proof Sys2Proof.Machine

namespace Sys2Proof.Proofs

/-- Settles O27. -/
theorem onlyDestinationsAndFlagChange : Obligations.OnlyDestinationsAndFlagChange :=
  fun _ _ _ _ h hd hf => exec_reg_of_not_written h hd hf

/-- Settles O28: what is left in `VF` is a flag value. -/
theorem flagIsZeroOrOne : Obligations.FlagIsZeroOrOne := by
  intro i s t hf h
  obtain ⟨b, hb⟩ := exec_flag h hf
  rw [hb]
  exact flagByte_cases b

/-- Settles O30. -/
theorem onlyCallAndRetChangeStack : Obligations.OnlyCallAndRetChangeStack := by
  intro i s t h
  refine ⟨exec_stack_of_not_call h, exec_sp_of_not_linkage h, ?_⟩
  rintro nnn rfl k hk
  cases next_inj h
  exact s.pushAndJump_stack_of_ne _ hk

/-- Settles O31. -/
theorem onlyIndexInstructionsChangeIndex : Obligations.OnlyIndexInstructionsChangeIndex :=
  fun _ _ _ h hl ha hf => exec_i_of_not_index h hl ha hf

/-- Settles O32. -/
theorem onlyTimerLoadsChangeTimers : Obligations.OnlyTimerLoadsChangeTimers := by
  intro i s t h
  obtain ⟨-, -, -, -, -, hinstr, hredraw⟩ := exec_leaves h
  exact ⟨exec_delay_of_not_load h, exec_sound_of_not_load h, hinstr, hredraw⟩

/-- Settles O33. -/
theorem onlyDrawAndClearChangeDisplay : Obligations.OnlyDrawAndClearChangeDisplay :=
  fun _ _ _ h => ⟨exec_display_of_not_draw h, exec_keeps_dirty h⟩

/-- Settles O34. -/
theorem controlStateChangesOnlyAsNamed : Obligations.ControlStateChangesOnlyAsNamed := by
  intro i s t h
  obtain ⟨hcfg, hinputs, hframes, hrender, hbound, -, -⟩ := exec_leaves h
  exact ⟨exec_status_of_not_linkage h, exec_status_of_halted h, exec_wait_of_not_ldVxK h,
    exec_diag_of_not_sys h, hbound, hcfg, hinputs, hframes, hrender⟩

end Sys2Proof.Proofs
end

section
/-! PROOFS. What the word of a frame and the parts of a frame do to the pieces of the state the invariant
speaks of, and `DIRTY` over a frame. -/

namespace Sys2Proof.Machine

variable {s t u : State} {i : Instr} {w : Word}

/-! ### The word of a frame -/

/-- A word is an instruction, or an unrecognised word that only pulses and advances
(40_execution_cycle.md R98). -/
theorem executeWord_cases (h : executeWord w s = .next t) :
    (∃ i, decodeWord w = .ok i ∧ exec i s = .next t) ∨ t = (s.pulseDiag w).advance := by
  unfold executeWord at h
  split at h
  · next i hi => exact .inl ⟨i, hi, h⟩
  · exact .inr (next_inj h).symm

/-! ### The redraw cadence at the end of a frame (60_exceptions.md R180) -/

/-- The end of a frame clears `DIRTY` exactly when it renders. -/
theorem State.finishFrame_dirty (h : s.render = false) :
    s.finishFrame.dirty = (s.dirty && !s.finishFrame.render) := by
  unfold State.finishFrame State.redrawCadence
  split <;> simp [h]

/-- After a frame a redraw that is due has nothing to show: if it had, it would have rendered. -/
theorem State.finishFrame_redraw (s : State)
    (h : s.finishFrame.cfg.redrawInterval ≤ s.finishFrame.accRedraw) :
    s.finishFrame.dirty = false := by
  revert h
  unfold State.finishFrame State.redrawCadence
  split
  · simp
  · next hc => simpa using fun hdue hd => hc ⟨hdue, hd⟩

/-! ### `DIRTY` over the word and the frame (10_state.md R32) -/

/-- A word that sets `DIRTY` is CLS or DRW. -/
theorem executeWord_dirty_rises (h : executeWord w s = .next t) (hs : s.dirty = false)
    (ht : t.dirty = true) :
    decodeWord w = .ok .cls ∨ ∃ x y n, decodeWord w = .ok (.drw x y n) := by
  obtain ⟨i, hi, he⟩ | rfl := executeWord_cases h
  · by_contra hno
    obtain ⟨hcls, hdrw⟩ := not_or.mp hno
    have hsame := exec_display_of_not_draw he
      (fun x y n e => hdrw ⟨x, y, n, e ▸ hi⟩) (fun e => hcls (e ▸ hi))
    simp [hsame.2, hs] at ht
  · simp [hs] at ht

theorem executeWord_keeps_dirty (h : executeWord w s = .next t) (hs : s.dirty = true) :
    t.dirty = true := by
  obtain ⟨i, -, he⟩ | rfl := executeWord_cases h
  · exact exec_keeps_dirty he hs
  · simpa using hs

/-- The state just before the redraw cadence of a frame that is not halted: no render pulse yet, `DIRTY`
raised by CLS and DRW alone and never lowered. -/
theorem step_before_finish (h : step s = .next t) (hs : ¬ s.halted) :
    ∃ u : State, t = u.finishFrame ∧ u.render = false ∧ (s.dirty = true → u.dirty = true) ∧
      (s.dirty = false → u.dirty = true → s.ready ∧
        (decodeWord s.fetchWord = .ok .cls ∨ ∃ x y n, decodeWord s.fetchWord = .ok (.drw x y n))) := by
  obtain ⟨hh, -⟩ | ⟨-, rfl⟩ | ⟨-, rfl⟩ | ⟨hready, u, hu, rfl⟩ := step_cases h
  · exact absurd hh hs
  · exact ⟨_, rfl, by simp, by simp, fun hd hd' => absurd hd' (by simp [hd])⟩
  · exact ⟨_, rfl, by simp, by simp, fun hd hd' => absurd hd' (by simp [hd])⟩
  · obtain ⟨-, -, -, hrender, -⟩ := executeWord_leaves hu
    exact ⟨_, rfl, by simp [hrender], fun hd => by simpa using executeWord_keeps_dirty hu (by simpa),
      fun hd hd' => ⟨hready, executeWord_dirty_rises hu (by simpa) (by simpa using hd')⟩⟩

end Sys2Proof.Machine

namespace Sys2Proof.Proofs

open Sys2Proof.Machine

/-- Settles O26. -/
theorem dirtyRisesByDrawingFallsByRendering : Obligations.DirtyRisesByDrawingFallsByRendering := by
  intro s t h
  by_cases hh : s.halted
  · rw [step_of_halted hh] at h
    cases next_inj h
    have hdirty : s.haltedFrame.dirty = s.dirty := rfl
    simp_all
  · obtain ⟨u, rfl, hr, hkeep, hrise⟩ := step_before_finish h hh
    rw [State.finishFrame_dirty hr]
    refine ⟨fun hs ht => hrise hs ?_, fun hs ht => ?_⟩
    · exact (Bool.and_eq_true_iff.mp ht).1
    · simpa [hkeep hs] using ht

end Sys2Proof.Proofs
end

section
/-! PROOFS. The invariant of the machine: O19, and O18 by the four kinds of frame. The invariant splits
into a part about the control state, which only the word of a frame, its bounds check and a key touch, and
the two clauses about the cadences, which every frame settles anew. -/

namespace Sys2Proof.Machine

variable {s t u : State} {i : Instr} {w : Word}

/-! ### The control part of the invariant -/

/-- The state the control clauses of the invariant speak of; everything else is as after reset. -/
def State.control (s : State) : State :=
  { State.reset with
      cfg := s.cfg, mem := s.mem, progEnd := s.progEnd, pc := s.pc, sp := s.sp, stack := s.stack,
      status := s.status, awaiting := s.awaiting }

/-- No cadence of the instructions and timers is overdue (40_execution_cycle.md R93; 60_exceptions.md R177,
R178). -/
abbrev State.noneOverdue (s : State) : Prop :=
  s.accInstr < s.cfg.instrInterval ∧ s.accDelay < s.cfg.timerPeriod ∧ s.accSound < s.cfg.timerPeriod

/-- The control part meets the invariant when the whole state does: after reset nothing is overdue. -/
theorem State.Inv.control (h : s.Inv) : s.control.Inv :=
  { h with
    accumulators := ⟨h.params.2.1, h.params.1, h.params.1⟩
    redraw := fun _ => rfl }

/-- The invariant is its control part with the clauses about the cadences. -/
theorem State.inv_of_control (hc : s.control.Inv) (ha : s.noneOverdue)
    (hr : s.cfg.redrawInterval ≤ s.accRedraw → s.dirty = false) : s.Inv :=
  { hc with accumulators := ha, redraw := hr }

@[simp] theorem State.control_clearPulses (s : State) : s.clearPulses.control = s.control := rfl
@[simp] theorem State.control_endFrame (s : State) : s.endFrame.control = s.control := rfl
@[simp] theorem State.control_timerDecay (s : State) : s.timerDecay.control = s.control := by
  simp [State.control]
@[simp] theorem State.control_redrawCadence (s : State) : s.redrawCadence.control = s.control := by
  simp [State.control]
@[simp] theorem State.control_finishFrame (s : State) : s.finishFrame.control = s.control := by
  simp [State.finishFrame]
@[simp] theorem State.control_beforeInstruction (s : State) :
    s.beforeInstruction.control = s.control := by
  simp [State.control]

/-! ### The parts of a frame -/

/-- The end of a frame establishes the clause about redraws, so the rest is all it needs. -/
theorem State.finishFrame_inv (hc : s.control.Inv) (ha : s.noneOverdue) : s.finishFrame.Inv :=
  State.inv_of_control (by simpa using hc) (by simpa [State.finishFrame, State.noneOverdue] using ha)
    s.finishFrame_redraw

/-- After the countdowns neither timer is overdue, whatever time the frame brought. -/
theorem State.timerDecay_lt_period (h : 0 < s.cfg.timerPeriod) :
    s.timerDecay.accDelay < s.cfg.timerPeriod ∧ s.timerDecay.accSound < s.cfg.timerPeriod := by
  have hdelay : s.delayCountdown.accDelay < s.cfg.timerPeriod := by
    unfold State.delayCountdown
    split
    · exact h
    · next hn => exact Nat.lt_of_not_le hn
  refine ⟨by simpa [State.timerDecay] using hdelay, ?_⟩
  unfold State.timerDecay State.soundCountdown
  split
  · exact h
  · next hn => simpa using hn

/-- A key delivered to a running machine touches the wait alone of the control state. -/
theorem State.deliverKey_control_inv (hc : s.control.Inv) (hs : s.status = .none) :
    s.deliverKey.control.Inv := by
  have heq : s.deliverKey.control = { s.control with awaiting := s.deliverKey.awaiting } := by
    simp [State.control]
  rw [heq]
  exact { hc with waitHalt := fun _ => .inl hs }

/-! ### The word of a frame -/

/-- A running machine's counter is the address of a word in the program's range. -/
theorem State.Inv.pc_range (h : s.Inv) (hs : s.status = .none) :
    0x200 ≤ s.pc.toNat ∧ s.pc.toNat < 0x1000 := by
  have hcounter := h.counter hs
  have hbound := h.bound
  omega

/-- "the largest value any rule can give it is 0x10FE" (10_state.md R22): JP_V0 reaches it, and the
operands, the returns and the advances stay below. -/
theorem exec_pc_le (h : exec i s = .next t) (hpc : s.pc.toNat < 0x1000)
    (hentries : ∀ k : Fin 16, k.val < s.sp.val → s.stack[k].toNat < 0x1000) :
    t.pc.toNat ≤ 0x10FE := by
  cases i with
  | jp nnn =>
    have hn := nnn.isLt
    cases next_inj h
    simp; omega
  | jpV0 nnn =>
    have hn := nnn.isLt
    have hb := (s.reg 0).isLt
    cases next_inj h
    simp [BitVec.toNat_add]; omega
  | call nnn =>
    have hn := nnn.isLt
    cases next_inj h
    unfold State.pushAndJump
    split
    · simp; omega
    · simp; omega
  | ret =>
    cases next_inj h
    unfold State.popAndReturn
    split
    · next hsp =>
      have hentry := hentries ⟨s.sp.val - 1, by omega⟩ (by simp; omega)
      simp [BitVec.toNat_add] at hentry ⊢; omega
    · simp; omega
  | seImm | sneImm | seReg | sneReg | skp | sknp =>
    cases next_inj h
    rw [State.skipIf_pc]
    split <;> simp [BitVec.toNat_add] <;> omega
  | _ => cases next_inj h; simp [BitVec.toNat_add]; omega

/-- CALL pushes the counter, and no other instruction adds an entry. -/
theorem exec_entries {P : Word → Prop} (h : exec i s = .next t) (hpc : P s.pc)
    (hentries : ∀ k : Fin 16, k.val < s.sp.val → P s.stack[k]) (k : Fin 16) (hk : k.val < t.sp.val) :
    P t.stack[k] := by
  cases i with
  | call nnn =>
    cases next_inj h
    by_cases hroom : s.sp.val < 16
    · rw [s.pushAndJump_of_room _ hroom] at hk ⊢
      by_cases hlast : k.val = s.sp.val
      · simpa [← hlast] using hpc
      · simpa [Ne.symm hlast] using hentries k (by simp at hk; omega)
    · rw [s.pushAndJump_of_full _ (by omega)] at hk ⊢
      simpa using hentries k (by simpa using hk)
  | ret =>
    cases next_inj h
    have hle : s.popAndReturn.sp.val ≤ s.sp.val := by
      unfold State.popAndReturn
      split <;> simp
    simpa using hentries k (by omega)
  | _ => cases next_inj h; simpa using hentries k (by simpa using hk)

/-- The stores keep the canonical form of memory, and no other instruction writes it. -/
theorem exec_memory_wf (h : exec i s = .next t) (hm : Memory.wf s.cfg.font s.mem) :
    Memory.wf t.cfg.font t.mem := by
  cases i with
  | ldB _ | stRegs _ =>
    cases next_inj h
    exact s.writeBytes_wf _ _ hm
  | _ => cases next_inj h; simpa using hm

/-- A running machine meets a stack fault only by CALL with a full stack or RET with an empty one, and
neither starts a wait (60_exceptions.md R165, R185). -/
theorem exec_status_cases (h : exec i s = .next t) (hs : s.status = .none) :
    t.status = .none ∨
    (t.status = .stackOverflow ∧ t.sp.val = 16 ∧ t.awaiting = s.awaiting) ∨
    (t.status = .stackUnderflow ∧ t.sp.val = 0 ∧ t.awaiting = s.awaiting) := by
  cases i with
  | call nnn =>
    cases next_inj h
    by_cases hroom : s.sp.val < 16
    · simp [hroom, hs]
    · simp [s.pushAndJump_of_full _ (show s.sp.val = 16 by omega), hs]; omega
  | ret =>
    cases next_inj h
    by_cases hentry : 0 < s.sp.val
    · simp [hentry, hs]
    · simp [s.popAndReturn_of_empty (by omega), hs]; omega
  | _ => cases next_inj h; simp [hs]

/-- An instruction leaves the accumulators of the timers or clears them. -/
theorem exec_timers_le (h : exec i s = .next t) :
    t.accDelay ≤ s.accDelay ∧ t.accSound ≤ s.accSound := by
  cases i <;> cases next_inj h <;> simp

/-- What the word of a frame keeps of a running machine's invariant: all of it but the place of the counter
in the program, which the bounds check settles next. -/
structure State.AfterWord (s : State) : Prop where
  params : s.cfg.wf
  memory : Memory.wf s.cfg.font s.mem
  bound : 0x200 ≤ s.progEnd.toNat ∧ s.progEnd.toNat ≤ 0x1000
  ceiling : s.pc.toNat ≤ 0x10FE
  entries : ∀ k : Fin 16, k.val < s.sp.val → 0x200 ≤ s.stack[k].toNat ∧ s.stack[k].toNat < 0x1000
  fault : s.status = .none ∨
    (s.status = .stackOverflow ∧ s.sp.val = 16 ∧ s.awaiting = false) ∨
    (s.status = .stackUnderflow ∧ s.sp.val = 0 ∧ s.awaiting = false)

theorem executeWord_afterWord (h : executeWord w s = .next t) (hc : s.control.Inv)
    (hs : s.status = .none) (ha : s.awaiting = false) : t.AfterWord := by
  have hpc : 0x200 ≤ s.pc.toNat ∧ s.pc.toNat < 0x1000 := hc.pc_range hs
  obtain ⟨hcfg, -, -, -, hbound, -, -⟩ := executeWord_leaves h
  obtain ⟨i, -, he⟩ | rfl := executeWord_cases h
  · exact {
      params := hcfg ▸ hc.params
      memory := exec_memory_wf he hc.memory
      bound := hbound ▸ hc.bound
      ceiling := exec_pc_le he hpc.2 fun k hk => (hc.entries k hk).2
      entries := exec_entries (P := fun w => 0x200 ≤ w.toNat ∧ w.toNat < 0x1000) he hpc hc.entries
      fault := ha ▸ exec_status_cases he hs }
  · exact {
      params := hc.params
      memory := hc.memory
      bound := hc.bound
      ceiling := by simp [BitVec.toNat_add]; omega
      entries := hc.entries
      fault := .inl hs }

/-- Where the bounds check does nothing: the machine has met a stack fault, or runs inside the program. -/
theorem State.AfterWord.control_inv (h : s.AfterWord) (hin : s.status = .none → s.pcInProgram) :
    s.control.Inv where
  params := h.params
  memory := h.memory
  bound := h.bound
  counter hs := ⟨(hin hs).1, .inl (hin hs).2⟩
  ceiling := h.ceiling
  entries := h.entries
  overflow (hs : s.status = _) := by have := h.fault; simp_all [State.control]
  underflow (hs : s.status = _) := by have := h.fault; simp_all [State.control]
  outside (hs : s.status = _) := by have := h.fault; simp_all
  reserved (hs : s.status = _) := by have := h.fault; simp_all
  waitHalt (hw : s.awaiting = _) := by have := h.fault; simp_all [State.control]
  accumulators := ⟨h.params.2.1, h.params.1, h.params.1⟩
  redraw _ := rfl

/-- Where the bounds check halts the machine, the counter is outside the program as that halt requires. -/
theorem State.AfterWord.outOfBounds_inv (h : s.AfterWord) (hout : ¬ s.pcInProgram) :
    ({ s with status := .outOfBounds } : State).control.Inv where
  params := h.params
  memory := h.memory
  bound := h.bound
  counter := nofun
  ceiling := h.ceiling
  entries := h.entries
  overflow := nofun
  underflow := nofun
  outside _ := hout
  reserved := nofun
  waitHalt _ := .inr rfl
  accumulators := ⟨h.params.2.1, h.params.1, h.params.1⟩
  redraw _ := rfl

/-- The bounds check completes the control part of the invariant (R97). -/
theorem State.AfterWord.boundsCheck (h : s.AfterWord) : s.boundsCheck.control.Inv := by
  by_cases hin : s.pcInProgram
  · rw [s.boundsCheck_of_inside (by simpa using mt s.pcOutside_iff.mp (not_not_intro hin))]
    exact h.control_inv fun _ => hin
  · by_cases hs : s.status = .none
    · rw [s.boundsCheck_of_outside (s.pcOutside_iff.mpr hin) hs]
      exact h.outOfBounds_inv hin
    · rw [s.boundsCheck_of_halted hs]
      exact h.control_inv fun hs' => absurd hs' hs

/-- Every word leaves the cadences settled: it clears the accumulators of the timers or leaves them. -/
theorem executeWord_noneOverdue (h : executeWord w s = .next t) (hs : s.noneOverdue) :
    t.noneOverdue := by
  obtain ⟨hcfg, -, -, -, -, hinstr, -⟩ := executeWord_leaves h
  have htimers : t.accDelay ≤ s.accDelay ∧ t.accSound ≤ s.accSound := by
    obtain ⟨i, -, he⟩ | rfl := executeWord_cases h
    · exact exec_timers_le he
    · simp
  simp only [State.noneOverdue, hcfg, hinstr] at *
  omega

/-- The state an instruction executes in has no cadence overdue (R93, R177, R178). -/
theorem State.beforeInstruction_noneOverdue (h : s.cfg.wf) : s.beforeInstruction.noneOverdue := by
  obtain ⟨hperiod, hinterval, -⟩ := h
  have htimers := s.clearPulses.timerDecay_lt_period hperiod
  simpa [State.beforeInstruction, State.noneOverdue, hinterval] using htimers

/-! ### The four kinds of frame -/

/-- A frame of a halted machine changes none of the state the invariant speaks of (R91). -/
theorem State.haltedFrame_inv (h : s.Inv) : s.haltedFrame.Inv :=
  State.inv_of_control h.control h.accumulators h.redraw

theorem State.waitingFrame_inv (h : s.Inv) (hs : s.status = .none) : s.waitingFrame.Inv := by
  have hkey : s.clearPulses.deliverKey.control.Inv :=
    State.deliverKey_control_inv (by simpa using h.control) hs
  refine State.finishFrame_inv (by simpa using hkey) ?_
  have htimers := s.clearPulses.deliverKey.timerDecay_lt_period (by simpa using h.params.1)
  simpa [State.noneOverdue, h.accumulators.1] using htimers

theorem State.idleFrame_inv (h : s.Inv) (hidle : s.idle) :
    ({ s.clearPulses.timerDecay with
        accInstr := s.accInstr + s.frameInput.elapsed } : State).finishFrame.Inv := by
  have hcontrol : s.clearPulses.timerDecay.control.Inv := by simpa using h.control
  have htimers := s.clearPulses.timerDecay_lt_period h.params.1
  refine State.finishFrame_inv hcontrol ?_
  simpa [State.noneOverdue, hidle.2.2] using htimers

theorem State.readyFrame_inv (h : s.Inv) (hready : s.ready)
    (hu : executeWord s.fetchWord s.beforeInstruction = .next u) : u.boundsCheck.finishFrame.Inv := by
  have hword : u.AfterWord :=
    executeWord_afterWord hu (by simpa using h.control) (by simpa using hready.1)
      (by simpa using hready.2.1)
  have hnone := executeWord_noneOverdue hu (State.beforeInstruction_noneOverdue h.params)
  exact State.finishFrame_inv hword.boundsCheck (by simpa [State.noneOverdue] using hnone)

end Sys2Proof.Machine

namespace Sys2Proof.Proofs

open Sys2Proof.Machine

/-- Settles O19: memory by its own lemma, the other clauses by evaluating the reset state. -/
theorem resetMeetsInvariant : Obligations.ResetMeetsInvariant where
  params := by decide
  memory := reset_memory_wf
  bound := by decide
  counter := by decide
  ceiling := by decide
  entries := by decide
  overflow := by decide
  underflow := by decide
  outside := by decide
  reserved := by decide
  waitHalt := by decide
  accumulators := by decide
  redraw := by decide

/-- Settles O18, by the four kinds of frame. -/
theorem stepKeepsInvariant : Obligations.StepKeepsInvariant := by
  intro s t hinv h
  obtain ⟨-, rfl⟩ | ⟨hwait, rfl⟩ | ⟨hidle, rfl⟩ | ⟨hready, u, hu, rfl⟩ := step_cases h
  · exact State.haltedFrame_inv hinv
  · exact State.waitingFrame_inv hinv hwait.1
  · exact State.idleFrame_inv hinv hidle
  · exact State.readyFrame_inv hinv hready hu

end Sys2Proof.Proofs
end

section
/-! PROOFS. Memory (20_memory.md): the bytes an instruction stores, O29; fetch, O6. -/

namespace Sys2Proof.Machine

/-! ### The bytes an instruction stores (20_memory.md R55) -/

/-- The memory after an instruction is the memory after a store of `storedBytes` bytes at `EA(0)`, `EA(1)`,
...; an instruction other than LD_B and ST_REGS stores the empty list. -/
theorem exec_mem_eq_storeAtIndex {s t : State} {i : Instr} (h : exec i s = .next t) :
    ∃ bs : List Byte, bs.length = i.storedBytes ∧ t.mem = (s.storeAtIndex bs).mem := by
  cases i with
  | ldB x =>
    cases next_inj h
    exact ⟨bcdDigits (s.reg x), bcdDigits_length _, rfl⟩
  | stRegs x =>
    cases next_inj h
    exact ⟨s.regsUpTo x, s.regsUpTo_length x, rfl⟩
  | _ => cases next_inj h; exact ⟨[], rfl, by simp [State.writeBytes]⟩

/-- A store at `EA(0)`, `EA(1)`, ... leaves every other address (R50). -/
theorem State.memRead_storeAtIndex_outside (s : State) (bs : List Byte) (a : Nat)
    (ha : ∀ k < bs.length, a % 4096 ≠ s.effAddr k) : (s.storeAtIndex bs).memRead a = s.memRead a :=
  s.memRead_writeBytes_outside bs s.i.toNat a ha

end Sys2Proof.Machine

namespace Sys2Proof.Proofs

open Sys2Proof.Machine

/-- Settles O29: what an instruction leaves in memory is one store at `EA(0)`, `EA(1)`, ... -/
theorem onlyStoredBytesChange : Obligations.OnlyStoredBytesChange := by
  intro i s t a h ha
  obtain ⟨bs, hlen, hmem⟩ := exec_mem_eq_storeAtIndex h
  obtain ⟨hcfg, -⟩ := exec_leaves h
  calc t.memRead a
      = (s.storeAtIndex bs).memRead a := State.memRead_congr hmem (by simp [hcfg]) a
    _ = s.memRead a := s.memRead_storeAtIndex_outside bs a (hlen ▸ ha)

/-- Settles O6: a word fetched is the two bytes side by side, and a read masks its address. -/
theorem fetchTakesHighByteFirst : Obligations.FetchTakesHighByteFirst := by
  intro s
  rw [State.memRead_mask, State.memRead_mask]
  exact ⟨BitVec.extractLsb'_append_eq_left, BitVec.extractLsb'_append_eq_right⟩

end Sys2Proof.Proofs
end

section
/-! PROOFS. The decoder against the encoder: the round trip, O1, and what each switch reads, O2 (30_encoding.md
R75 to R81, R85). -/

namespace Sys2Proof

variable {w : Word} {i : Instr}

/-! ### Decoding an encoded instruction (R85) -/

/-- The second switch of family 0 leaves a well-formed operand to SYS (R76). -/
theorem decode0_wordAddr {op : BitVec 4} {nnn : Addr} (h : sysOperandWf nnn = true) :
    decode0 (wordAddr op nnn) = .sys nnn := by
  obtain ⟨hcls, hret⟩ : nnn.extractLsb' 0 8 ≠ 0xE0#8 ∧ nnn.extractLsb' 0 8 ≠ 0xEE#8 := by
    simpa [sysOperandWf] using h
  simp [decode0, hcls, hret]

/-- Only SYS's operand decides a branch of the decoder; every other instruction's word holds the opcode of
its branch in literal fields. -/
theorem decodeWord_encode (h : i.wf = true) : decodeWord (encode i) = .ok i := by
  cases i with
  | sys nnn => rw [encode, decodeWord_family0 (by simp), decode0_wordAddr h]
  | _ => simp [encode, decodeWord, decode0, decode8, decodeE, decodeF]

theorem decodeBytes_encodeBytes (i : Instr) (rest : List Byte) :
    decodeBytes (encodeBytes i ++ rest) = (decodeWord (encode i)).map (·, rest) := by
  simp [encodeBytes, decodeBytes]

/-! ### When a word is of a shape with given fields -/

theorem wordAddr_eq_iff {op : BitVec 4} {nnn : Addr} :
    wordAddr op nnn = w ↔ fieldOp w = op ∧ fieldNNN w = nnn := by
  constructor
  · rintro rfl; simp
  · rintro ⟨rfl, rfl⟩; exact (word_eq_wordAddr w).symm

theorem wordXNN_eq_iff {op : BitVec 4} {x : RegNum} {nn : Byte} :
    wordXNN op x nn = w ↔ fieldOp w = op ∧ fieldX w = x ∧ fieldNN w = nn := by
  constructor
  · rintro rfl; simp
  · rintro ⟨rfl, rfl, rfl⟩; exact (word_eq_wordXNN w).symm

theorem wordXYN_eq_iff {op : BitVec 4} {x y : RegNum} {n : Nibble} :
    wordXYN op x y n = w ↔ fieldOp w = op ∧ fieldX w = x ∧ fieldY w = y ∧ fieldN w = n := by
  constructor
  · rintro rfl; simp
  · rintro ⟨rfl, rfl, rfl, rfl⟩; exact (word_eq_wordXYN w).symm

theorem extractLsb'_fieldNNN (w : Word) : (fieldNNN w).extractLsb' 0 8 = fieldNN w := by
  conv_rhs => rw [word_eq_wordAddr w, fieldNN_wordAddr]

/-! ### The masks of the used bits (R81) -/

theorem fieldOp_and (w m : Word) : fieldOp (w &&& m) = fieldOp w &&& fieldOp m :=
  BitVec.extractLsb'_and

theorem fieldX_and (w m : Word) : fieldX (w &&& m) = fieldX w &&& fieldX m :=
  BitVec.extractLsb'_and

theorem fieldY_and (w m : Word) : fieldY (w &&& m) = fieldY w &&& fieldY m :=
  BitVec.extractLsb'_and

theorem fieldN_and (w m : Word) : fieldN (w &&& m) = fieldN w &&& fieldN m :=
  BitVec.extractLsb'_and

theorem and_FFFF (w : Word) : w &&& 0xFFFF#16 = w := BitVec.and_allOnes

theorem and_FFF0 (w : Word) : w &&& 0xFFF0#16 = wordXYN (fieldOp w) (fieldX w) (fieldY w) 0#4 :=
  (wordXYN_eq_iff.mpr ⟨(fieldOp_and ..).trans BitVec.and_allOnes,
    (fieldX_and ..).trans BitVec.and_allOnes, (fieldY_and ..).trans BitVec.and_allOnes,
    (fieldN_and ..).trans BitVec.and_zero⟩).symm

theorem and_FF0F (w : Word) : w &&& 0xFF0F#16 = wordXYN (fieldOp w) (fieldX w) 0#4 (fieldN w) :=
  (wordXYN_eq_iff.mpr ⟨(fieldOp_and ..).trans BitVec.and_allOnes,
    (fieldX_and ..).trans BitVec.and_allOnes, (fieldY_and ..).trans BitVec.and_zero,
    (fieldN_and ..).trans BitVec.and_allOnes⟩).symm

/-! ### What the decoder reads -/

/-- The instruction is well formed, and the word is its canonical word up to ignored bits (R81). -/
def Instr.ReadFrom (i : Instr) (w : Word) : Prop :=
  i.wf = true ∧ encode i = w &&& i.usedBits

theorem decode0_readFrom (h : fieldOp w = 0x0#4) : (decode0 w).ReadFrom w := by
  have hmask : w &&& 0xF0FF#16 = wordXNN 0x0#4 0x0#4 (fieldNN w) := h ▸ and_F0FF w
  unfold decode0
  split_ifs with hcls hret
  · exact ⟨rfl, by rw [hcls] at hmask; exact hmask.symm⟩
  · exact ⟨rfl, by rw [hret] at hmask; exact hmask.symm⟩
  · constructor
    · simp [Instr.wf, sysOperandWf, extractLsb'_fieldNNN, hcls, hret]
    · simp [encode, Instr.usedBits, and_FFFF, wordAddr_eq_iff, h]

theorem decode8_readFrom (h : fieldOp w = 0x8#4) (hd : decode8 w = .ok i) : i.ReadFrom w := by
  unfold decode8 at hd
  split_ifs at hd with hn hn hn hn hn hn hn hn hn <;> cases hd <;>
    simp [Instr.ReadFrom, Instr.wf, encode, Instr.usedBits, and_FFFF, and_FF0F, wordXYN_eq_iff, h, hn]

theorem decodeE_readFrom (h : fieldOp w = 0xE#4) (hd : decodeE w = .ok i) : i.ReadFrom w := by
  unfold decodeE at hd
  split_ifs at hd with hn hn <;> cases hd <;>
    simp [Instr.ReadFrom, Instr.wf, encode, Instr.usedBits, and_FFFF, wordXNN_eq_iff, h, hn]

theorem decodeF_readFrom (h : fieldOp w = 0xF#4) (hd : decodeF w = .ok i) : i.ReadFrom w := by
  unfold decodeF at hd
  split_ifs at hd with hn hn hn hn hn hn hn hn hn <;> cases hd <;>
    simp [Instr.ReadFrom, Instr.wf, encode, Instr.usedBits, and_FFFF, wordXNN_eq_iff, h, hn]

/-- The first switch (R75): four families have a second switch, the other twelve are one instruction each. -/
theorem first_switch_cases (w : Word) :
    fieldOp w = 0x0#4 ∨ fieldOp w = 0x8#4 ∨ fieldOp w = 0xE#4 ∨ fieldOp w = 0xF#4 ∨
      ∃ i, decodeWord w = .ok i ∧ i.ReadFrom w := by
  rcases nibble_cases (fieldOp w) with h | h | h | h | h | h | h | h | h | h | h | h | h | h | h | h <;>
    simp [decodeWord, Instr.ReadFrom, Instr.wf, encode, Instr.usedBits, and_FFFF, and_FFF0,
      wordAddr_eq_iff, wordXNN_eq_iff, wordXYN_eq_iff, h]

theorem decodeWord_readFrom (hd : decodeWord w = .ok i) : i.ReadFrom w := by
  obtain h | h | h | h | ⟨j, hj, hread⟩ := first_switch_cases w
  · rw [decodeWord_family0 h] at hd
    cases hd
    exact decode0_readFrom h
  · exact decode8_readFrom h (decodeWord_family8 h ▸ hd)
  · exact decodeE_readFrom h (decodeWord_familyE h ▸ hd)
  · exact decodeF_readFrom h (decodeWord_familyF h ▸ hd)
  · cases hj.symm.trans hd
    exact hread

end Sys2Proof

namespace Sys2Proof.Proofs

/-- Settles O1, by the round trip of one word. -/
theorem decodeOfEncodedInstruction : Obligations.DecodeOfEncodedInstruction := by
  intro i rest h
  rw [decodeBytes_encodeBytes, decodeWord_encode h]
  rfl

/-- Settles O2. -/
theorem canonicalWordOfDecodedWord : Obligations.CanonicalWordOfDecodedWord :=
  fun _ _ => decodeWord_readFrom

end Sys2Proof.Proofs
end

section
/-! PROOFS. The decoder against the words and rows of the tables: the words it rejects, O3, and the opcode
table, O4 (30_encoding.md R82, R86). -/

namespace Sys2Proof

variable {w : Word}

/-! ### Unrecognised words (R82) -/

theorem decode8_error_iff : (∃ e, decode8 w = .error e) ↔
    fieldN w ∈ [0x8#4, 0x9#4, 0xA#4, 0xB#4, 0xC#4, 0xD#4, 0xF#4] := by
  unfold decode8
  rcases nibble_cases (fieldN w) with h | h | h | h | h | h | h | h | h | h | h | h | h | h | h | h <;>
    simp [h]

theorem decodeE_error_iff : (∃ e, decodeE w = .error e) ↔ fieldNN w ∉ [0x9E#8, 0xA1#8] := by
  unfold decodeE
  split_ifs <;> simp [*]

theorem decodeF_error_iff : (∃ e, decodeF w = .error e) ↔
    fieldNN w ∉ [0x07#8, 0x0A#8, 0x15#8, 0x18#8, 0x1E#8, 0x29#8, 0x33#8, 0x55#8, 0x65#8] := by
  unfold decodeF
  split_ifs <;> simp [*]

/-- Only the second switches of families 8, E and F can reject (R77 to R79). -/
theorem decodeWord_error_iff : (∃ e, decodeWord w = .error e) ↔
    (fieldOp w = 0x8#4 ∧ ∃ e, decode8 w = .error e) ∨ (fieldOp w = 0xE#4 ∧ ∃ e, decodeE w = .error e) ∨
      (fieldOp w = 0xF#4 ∧ ∃ e, decodeF w = .error e) := by
  rcases nibble_cases (fieldOp w) with h | h | h | h | h | h | h | h | h | h | h | h | h | h | h | h <;>
    simp [decodeWord, h]

/-! ### The rows a word hits (R86) -/

theorem OpRow.hits_F000 (m : String) (p w : Word) : (OpRow.mk m 0xF000#16 p).hits w =
    decide (fieldOp w = p.extractLsb' 12 4 ∧ p.extractLsb' 0 12 = 0#12) := by
  rw [hits, Bool.beq_eq_decide_eq, decide_eq_decide, eq_comm (a := fieldOp w)]
  exact (and_F000 w).symm ▸ wordAddr_eq_iff

theorem OpRow.hits_F00F (m : String) (p w : Word) : (OpRow.mk m 0xF00F#16 p).hits w =
    decide (fieldOp w = p.extractLsb' 12 4 ∧ p.extractLsb' 8 4 = 0#4 ∧ p.extractLsb' 4 4 = 0#4 ∧
      fieldN w = p.extractLsb' 0 4) := by
  rw [hits, Bool.beq_eq_decide_eq, decide_eq_decide, eq_comm (a := fieldOp w),
    eq_comm (a := fieldN w)]
  exact (and_F00F w).symm ▸ wordXYN_eq_iff

theorem OpRow.hits_F0FF (m : String) (p w : Word) : (OpRow.mk m 0xF0FF#16 p).hits w =
    decide (fieldOp w = p.extractLsb' 12 4 ∧ p.extractLsb' 8 4 = 0#4 ∧
      fieldNN w = p.extractLsb' 0 8) := by
  rw [hits, Bool.beq_eq_decide_eq, decide_eq_decide, eq_comm (a := fieldOp w),
    eq_comm (a := fieldNN w)]
  exact (and_F0FF w).symm ▸ wordXNN_eq_iff

theorem sysRow_hits_iff : sysRow.hits w = true ↔ fieldOp w = 0x0#4 := by
  simp [sysRow, OpRow.hits_F000]

/-- What a word selects: a row with the longer masks that it hits, or else SYS's row, or else nothing. -/
theorem tableRow_cases (w : Word) :
    (∃ r ∈ opcodeRows, r.hits w = true ∧ tableRow w = some r) ∨
    (∀ r ∈ opcodeRows, r.hits w = false) ∧
      (sysRow.hits w = true ∧ tableRow w = some sysRow ∨ sysRow.hits w = false ∧ tableRow w = none) := by
  rw [tableRow, List.find?_append]
  cases hfind : opcodeRows.find? (·.hits w) with
  | some r => exact .inl ⟨r, List.mem_of_find?_eq_some hfind, by simpa using List.find?_some hfind, rfl⟩
  | none =>
    refine .inr ⟨fun r hr => by simpa using List.find?_eq_none.mp hfind r hr, ?_⟩
    cases hsys : sysRow.hits w <;> simp [hsys]

/-! ### The decoder on a word that hits a row, SYS's row alone, or no row -/

/-- Row by row: the fields under the row's mask lead both switches to the row's instruction. -/
theorem decodeWord_of_hits {r : OpRow} (hr : r ∈ opcodeRows) (h : r.hits w = true) :
    ∃ i, decodeWord w = .ok i ∧ i.mnemonic = r.mnemonic := by
  fin_cases hr <;>
    simp [OpRow.hits_F000, OpRow.hits_F00F, OpRow.hits_F0FF] at h <;>
    simp [decodeWord, decode0, decode8, decodeE, decodeF, h, Instr.mnemonic]

theorem decodeWord_of_sysRow_hits (hno : ∀ r ∈ opcodeRows, r.hits w = false)
    (h : sysRow.hits w = true) : decodeWord w = .ok (.sys (fieldNNN w)) := by
  have hop : fieldOp w = 0x0#4 := sysRow_hits_iff.mp h
  have hcls := hno ⟨"CLS", 0xF0FF#16, 0x00E0#16⟩ (by decide)
  have hret := hno ⟨"RET", 0xF0FF#16, 0x00EE#16⟩ (by decide)
  simp [OpRow.hits_F0FF, hop] at hcls hret
  simp [decodeWord_family0 hop, decode0, hcls, hret]

/-- Family by family: a branch of a switch that the word takes would be a row that it hits. -/
theorem decodeWord_of_no_row (hno : ∀ r ∈ opcodeRows, r.hits w = false)
    (h : sysRow.hits w = false) : ∃ e, decodeWord w = .error e := by
  simp [opcodeRows, sysRow, OpRow.hits_F000, OpRow.hits_F00F, OpRow.hits_F0FF] at hno h
  rcases nibble_cases (fieldOp w) with hop | hop | hop | hop | hop | hop | hop | hop | hop | hop |
    hop | hop | hop | hop | hop | hop <;>
    simp_all [decodeWord, decode8, decodeE, decodeF]

/-- The patterns of two rows differ somewhere both masks look. -/
theorem opcodeRows_eq_of_patterns_agree : ∀ r₁ ∈ opcodeRows, ∀ r₂ ∈ opcodeRows,
    r₁.pattern &&& r₂.mask = r₂.pattern &&& r₁.mask → r₁ = r₂ := by decide

theorem OpRow.patterns_agree_of_hits {r₁ r₂ : OpRow} (h₁ : r₁.hits w = true) (h₂ : r₂.hits w = true) :
    r₁.pattern &&& r₂.mask = r₂.pattern &&& r₁.mask := by
  rw [hits, beq_iff_eq] at h₁ h₂
  rw [← h₁, ← h₂, BitVec.and_assoc, BitVec.and_assoc, BitVec.and_comm r₁.mask]

end Sys2Proof

namespace Sys2Proof.Proofs

/-- Settles O3, by the three second switches that can reject. -/
theorem rejectedWordsAreTheUnrecognisedWords : Obligations.RejectedWordsAreTheUnrecognisedWords := by
  intro w
  rw [decodeWord_error_iff, decode8_error_iff, decodeE_error_iff, decodeF_error_iff]
  rfl

/-- Settles O4: the decoder by what the table selects, the overlap by the rows' patterns. -/
theorem decoderAgreesWithOpcodeTable : Obligations.DecoderAgreesWithOpcodeTable := by
  constructor
  · intro w
    obtain ⟨r, hr, hhits, htable⟩ | ⟨hno, ⟨hsys, htable⟩ | ⟨hsys, htable⟩⟩ := tableRow_cases w
    · obtain ⟨i, hi, hm⟩ := decodeWord_of_hits hr hhits
      simp [hi, hm, htable]
    · rw [decodeWord_of_sysRow_hits hno hsys, htable]
      rfl
    · obtain ⟨e, he⟩ := decodeWord_of_no_row hno hsys
      rw [he, htable]
      rfl
  · intro w r₁ r₂ hr₁ hr₂ h₁ h₂
    exact opcodeRows_eq_of_patterns_agree r₁ hr₁ r₂ hr₂ (OpRow.patterns_agree_of_hits h₁ h₂)

end Sys2Proof.Proofs
end

section
/-! PROOFS. Totality of a step, the end of a run and the jump to itself: O17 (40_execution_cycle.md R91,
R100). -/

namespace Sys2Proof.Machine

variable {s t : State} {stop : Word} {n : Nat}

/-! ### Every step and every run answers a next state (30_encoding.md R82, R91) -/

theorem step_answers_next (s : State) : ∃ t, step s = .next t := by
  obtain h | h | h | h := s.kind_cases
  · exact ⟨_, step_of_halted h⟩
  · exact ⟨_, step_of_waiting h⟩
  · exact ⟨_, step_of_idle h⟩
  · obtain ⟨u, hu⟩ := executeWord_answers_next s.beforeInstruction.fetchWord s.beforeInstruction
    exact ⟨_, by rw [step_of_ready h, executeOne, hu, andThen_next, andThen_next]⟩

theorem run_answers_next (n : Nat) (s : State) : ∃ t, core.run n s = .next t := by
  induction n generalizing s with
  | zero => exact ⟨s, run_zero s⟩
  | succ n ih =>
    obtain ⟨u, hu⟩ := step_answers_next s
    rw [run_succ n hu]
    exact ih u

/-! ### A halt is never undone (R91) -/

theorem step_keeps_halted (hs : s.halted) (h : step s = .next t) : t.halted := by
  cases next_inj ((step_of_halted hs).symm.trans h)
  exact hs

/-- A run that ends unhalted was never halted: the state after any part of it would have stayed so. -/
theorem State.safeFor_of_run_not_halted (h : core.run n s = .next t) (ht : ¬ t.halted) :
    s.safeFor n := by
  intro k hk
  obtain ⟨u, hu⟩ := run_answers_next k s
  refine ⟨u, hu, fun hhalt => ht ?_⟩
  have hrest : core.run (n - k) u = .next t := by rw [← run_add hu, Nat.add_sub_cancel' hk, h]
  exact run_keeps (fun _ _ => step_keeps_halted) hhalt hrest

/-! ### The jump to itself (R100) -/

/-- A running machine that stands on a jump to itself, inside its program. -/
def State.idlesInPlace (s : State) : Prop :=
  s.status = .none ∧ s.awaiting = false ∧ s.pcInProgram ∧ s.selfJump

/-- Whether the machine idles in place is seen in its control part. -/
theorem State.idlesInPlace_control (s : State) : s.control.idlesInPlace ↔ s.idlesInPlace := Iff.rfl

/-- A jump to itself executes as a jump to `PC` (R110). -/
theorem executeWord_selfJump (h : s.selfJump) (u : State) :
    executeWord s.fetchWord u = .next (u.jumpTo s.pc) := by
  obtain ⟨nnn, hdecode, hself⟩ := h
  have htarget : addrOperand nnn = s.pc := BitVec.eq_of_toNat_eq (by rw [addrOperand_toNat, hself])
  rw [executeWord, hdecode, ← htarget]
  rfl

/-- No frame of a machine that idles in place changes its control part. -/
theorem step_keeps_control_of_idlesInPlace (hs : s.idlesInPlace) (h : step s = .next t) :
    t.control = s.control := by
  obtain ⟨hrun, hawake, hin, hjump⟩ := hs
  obtain ⟨hhalt, -⟩ | ⟨hwait, -⟩ | ⟨-, rfl⟩ | ⟨-, u, hu, rfl⟩ := step_cases h
  · exact absurd hrun hhalt
  · exact absurd hwait.2 (by simp [hawake])
  · rw [State.control_finishFrame]
    exact s.clearPulses.control_timerDecay
  · cases next_inj ((executeWord_selfJump hjump _).symm.trans hu)
    have hinside : (s.beforeInstruction.jumpTo s.pc).pcOutside = false := by
      rw [← Bool.not_eq_true, State.pcOutside_iff, not_not]
      simpa [State.pcInProgram] using hin
    calc (s.beforeInstruction.jumpTo s.pc).boundsCheck.finishFrame.control
        = (s.beforeInstruction.jumpTo s.pc).control := by
          rw [State.control_finishFrame, State.boundsCheck_of_inside _ hinside]
      _ = s.control := by simp [State.control]

theorem run_keeps_control_of_idlesInPlace (hs : s.idlesInPlace) (h : core.run n s = .next t) :
    t.control = s.control := by
  refine run_keeps (P := fun u => u.control = s.control) (fun u v hu hv => ?_) rfl h
  have hidle : u.idlesInPlace := by rwa [← State.idlesInPlace_control, hu]
  exact (step_keeps_control_of_idlesInPlace hidle hv).trans hu

/-- The chosen end is seen in the control part (R100). -/
theorem State.atEnd_of_control_eq (hc : t.control = s.control) (hs : s.atEnd stop) : t.atEnd stop := by
  change t.control.atEnd stop
  rwa [hc]

end Sys2Proof.Machine

namespace Sys2Proof.Proofs

open Sys2Proof.Machine

/-- Settles O17: a step is total, a halt lasts, and a jump to itself keeps the machine where it idles. -/
theorem everyStepAnswersNext : Obligations.EveryStepAnswersNext := by
  refine ⟨step_answers_next, ?_, ?_⟩
  · rintro s stop n ⟨t, hrun, hend⟩
    exact State.safeFor_of_run_not_halted hrun (State.not_halted_of_atEnd hend)
  · intro s n hs ha hin hjump
    obtain ⟨t, ht⟩ := run_answers_next n s
    have hcontrol := run_keeps_control_of_idlesInPlace ⟨hs, ha, hin, hjump⟩ ht
    exact ⟨t, ht, State.atEnd_of_control_eq hcontrol ⟨hs, ha, rfl⟩⟩

end Sys2Proof.Proofs
end

section
/-! PROOFS. The execution cycle (40_execution_cycle.md R90 to R101): the word of a frame and its bounds check,
O7, O8 and O9; the frames that execute nothing, O11, O12 and O13; the interleaving of R101, O22; the inputs,
O23. -/

namespace Sys2Proof.Machine

variable {s t u : State} {i : Instr} {w : Word} {n : Nat}

/-! ### The word of a frame (R94, R98) -/

theorem executeWord_of_ok (h : decodeWord w = .ok i) (s : State) : executeWord w s = exec i s := by
  simp only [executeWord, h]

theorem executeWord_of_error {e : Reject} (h : decodeWord w = .error e) (s : State) :
    executeWord w s = .next (s.pulseDiag w).advance := by
  simp only [executeWord, h, execUnrecognised]

/-- `ExecuteOne` is the word, then the bounds check (R94, R97). -/
theorem executeOne_of_next (h : executeWord s.fetchWord s = .next u) :
    executeOne s = .next u.boundsCheck := by
  rw [executeOne, h, andThen_next]

theorem andThen_andThen (o : Outcome) (f g : State → State) :
    andThen (andThen o f) g = andThen o (fun s => g (f s)) := by
  cases o <;> rfl

/-- A ready frame is the word at `PC` between the timers and the bounds check. -/
theorem step_of_ready_word (h : s.ready) :
    step s = andThen (executeWord s.fetchWord s.beforeInstruction) (fun t => t.boundsCheck.finishFrame) := by
  rw [step_of_ready h, executeOne, andThen_andThen, State.fetchWord_beforeInstruction]

/-- The bounds check leaves a counter inside the program alone (R97). -/
theorem State.boundsCheck_of_pcInProgram (h : s.pcInProgram) : s.boundsCheck = s :=
  s.boundsCheck_of_inside (by simpa using mt s.pcOutside_iff.mp (not_not_intro h))

/-! ### A halted machine (R91, R100) -/

theorem run_of_halted_keeps_status_pc (hs : s.halted) (h : core.run n s = .next t) :
    t.status = s.status ∧ t.pc = s.pc := by
  refine run_keeps (P := fun u => u.status = s.status ∧ u.pc = s.pc) (fun u v hu hv => ?_) ⟨rfl, rfl⟩ h
  have hhalt : u.halted := by simpa only [State.halted, hu.1] using hs
  cases next_inj ((step_of_halted hhalt).symm.trans hv)
  exact hu

/-! ### Key delivery and the waiting frame (R92) -/

theorem State.deliverKey_of_key {k : Byte} (hk : s.frameInput.key = some k) (h : k.toNat ≤ 15) :
    s.deliverKey = { s.setReg s.target k with awaiting := false } := by
  simp only [State.deliverKey, hk, if_pos h]

theorem State.deliverKey_of_no_key (h : ∀ k, s.frameInput.key = some k → 15 < k.toNat) :
    s.deliverKey = s := by
  obtain ⟨heq, -⟩ | ⟨k, hk, hle, -⟩ := s.deliverKey_cases
  · exact heq
  · exact absurd (h k hk) (Nat.not_lt.mpr hle)

@[simp] theorem State.reg_waitingFrame (s : State) (r : RegNum) :
    s.waitingFrame.reg r = s.clearPulses.deliverKey.reg r := by
  simp [State.waitingFrame]

@[simp] theorem State.waitingFrame_awaiting (s : State) :
    s.waitingFrame.awaiting = s.clearPulses.deliverKey.awaiting := by
  simp [State.waitingFrame, State.finishFrame]

@[simp] theorem State.waitingFrame_diag (s : State) : s.waitingFrame.diag = none := by
  simp [State.waitingFrame, State.finishFrame]

/-- The one register a key writes is `V[TARGET]`, and a key ends the wait. -/
theorem State.waitingFrame_of_key {k : Byte} (hk : s.frameInput.key = some k) (h : k.toNat ≤ 15) :
    s.waitingFrame.awaiting = false ∧ s.waitingFrame.reg s.target = k ∧
      ∀ r, r ≠ s.target → s.waitingFrame.reg r = s.reg r := by
  have hkey : s.clearPulses.deliverKey = { s.clearPulses.setReg s.target k with awaiting := false } :=
    State.deliverKey_of_key (by simpa using hk) h
  simp only [State.waitingFrame_awaiting, State.reg_waitingFrame, hkey]
  exact ⟨trivial, State.reg_setReg_self .., fun r hr => State.reg_setReg_of_ne _ _ hr⟩

/-- Without a key 0 to 15 the wait goes on and the registers stay. -/
theorem State.waitingFrame_of_no_key (h : ∀ k, s.frameInput.key = some k → 15 < k.toNat) :
    s.waitingFrame.awaiting = s.awaiting ∧ ∀ r, s.waitingFrame.reg r = s.reg r := by
  have hkey : s.clearPulses.deliverKey = s.clearPulses :=
    State.deliverKey_of_no_key (by simpa using h)
  simp only [State.waitingFrame_awaiting, State.reg_waitingFrame, hkey]
  exact ⟨rfl, fun _ => rfl⟩

/-- A waiting frame changes a key's register and the wait, the timers, and time. -/
theorem State.waitingFrame_eq (s : State) :
    s.waitingFrame =
      { s with
          v := s.waitingFrame.v, awaiting := s.waitingFrame.awaiting, dt := s.waitingFrame.dt,
          st := s.waitingFrame.st, accDelay := s.waitingFrame.accDelay,
          accSound := s.waitingFrame.accSound, accRedraw := s.waitingFrame.accRedraw,
          dirty := s.waitingFrame.dirty, inputs := s.waitingFrame.inputs,
          frames := s.waitingFrame.frames, diag := s.waitingFrame.diag,
          render := s.waitingFrame.render } := by
  simp [State.waitingFrame, State.finishFrame, State.endFrame]

/-! ### The machine at instruction granularity (R101) -/

/-- What the end of a frame changes is time. -/
theorem State.sameButTime_finishFrame (s : State) : s.SameButTime s.finishFrame := by
  unfold State.SameButTime State.finishFrame State.redrawCadence
  split <;> rfl

/-- A run goes on as time passes. -/
theorem Interleaving.time (h : Interleaving n s t) (ht : t.SameButTime u) : Interleaving n s u :=
  h.between (.time t u ht)

theorem Interleaving.setAccInstr (h : Interleaving n s t) (a : Nat) :
    Interleaving n s { t with accInstr := a } :=
  h.time rfl

theorem Interleaving.clearPulses (h : Interleaving n s t) : Interleaving n s t.clearPulses :=
  h.time rfl

theorem Interleaving.finishFrame (h : Interleaving n s t) : Interleaving n s t.finishFrame :=
  h.time t.sameButTime_finishFrame

/-- A countdown is a tick of the delay timer when the period has passed, and time alone when not. -/
theorem Interleaving.delayCountdown (h : Interleaving n s t) (ht : t.status = .none) :
    Interleaving n s t.delayCountdown := by
  unfold State.delayCountdown
  split
  · exact (h.between (.delayTick t ht)).time rfl
  · exact h.time rfl

theorem Interleaving.soundCountdown (h : Interleaving n s t) (ht : t.status = .none) :
    Interleaving n s t.soundCountdown := by
  unfold State.soundCountdown
  split
  · exact (h.between (.soundTick t ht)).time rfl
  · exact h.time rfl

theorem Interleaving.timerDecay (h : Interleaving n s t) (ht : t.status = .none) :
    Interleaving n s t.timerDecay :=
  (h.delayCountdown ht).soundCountdown (by simpa using ht)

theorem Interleaving.deliverKey (h : Interleaving n s t) (ht : t.waiting) :
    Interleaving n s t.deliverKey := by
  obtain ⟨heq, -⟩ | ⟨k, -, hle, heq⟩ := t.deliverKey_cases
  · rwa [heq]
  · rw [heq]; exact h.between (.key t k ht hle)

/-- Before the instruction of a frame its pulses fall, its timers count and its accumulator is cleared. -/
theorem Interleaving.beforeInstruction (h : Interleaving n s t) (ht : t.status = .none) :
    Interleaving n s t.beforeInstruction :=
  (h.clearPulses.timerDecay ht).setAccInstr 0

/-! ### What reads the inputs (R99) -/

/-- The state with other inputs to come. -/
def State.withInputs (s : State) (l : List FrameInput) : State := { s with inputs := l }

/-- A run of stores does not read the inputs. -/
theorem State.writeBytes_withInputs (l : List FrameInput) (bs : List Byte) (s : State) (a : Nat) :
    (s.withInputs l).writeBytes a bs = (s.writeBytes a bs).withInputs l := by
  induction bs generalizing s a with
  | nil => rfl
  | cons b bs ih => exact ih (s.memWrite a b) (a + 1)

/-- A run of register writes does not read the inputs. -/
theorem State.setRegsFrom_withInputs (l : List FrameInput) (bs : List Byte) (s : State) (k : Nat) :
    (s.withInputs l).setRegsFrom k bs = (s.setRegsFrom k bs).withInputs l := by
  induction bs generalizing s k with
  | nil => rfl
  | cons b bs ih => exact ih (s.setReg (BitVec.ofNat 4 k) b) (k + 1)

theorem State.raise_withInputs (l : List FrameInput) (s : State) (e : Status) :
    (s.withInputs l).raise e = (s.raise e).withInputs l := by
  by_cases h : s.status = .none
  · rw [s.raise_of_running h, (s.withInputs l).raise_of_running h]; rfl
  · rw [s.raise_of_halted h, (s.withInputs l).raise_of_halted h]

theorem State.pushAndJump_withInputs (l : List FrameInput) (s : State) (w : Word) :
    (s.withInputs l).pushAndJump w = (s.pushAndJump w).withInputs l := by
  by_cases h : s.sp.val < 16
  · rw [s.pushAndJump_of_room w h, (s.withInputs l).pushAndJump_of_room w h]; rfl
  · have hfull : s.sp.val = 16 := by omega
    rw [s.pushAndJump_of_full w hfull, (s.withInputs l).pushAndJump_of_full w hfull,
      State.raise_withInputs]

theorem State.popAndReturn_withInputs (l : List FrameInput) (s : State) :
    (s.withInputs l).popAndReturn = s.popAndReturn.withInputs l := by
  by_cases h : 0 < s.sp.val
  · rw [s.popAndReturn_of_entry h, (s.withInputs l).popAndReturn_of_entry h]; rfl
  · have hempty : s.sp.val = 0 := by omega
    rw [s.popAndReturn_of_empty hempty, (s.withInputs l).popAndReturn_of_empty hempty,
      State.raise_withInputs]

theorem next_congr (h : s = t) : (Host.Outcome.next s : Outcome) = .next t := congrArg _ h

/-- An instruction other than SKP, SKNP and RND commutes with a change of the inputs: the linkage and the
block transfers by their own lemmas, every other one by its meaning as it stands. -/
theorem exec_withInputs (l : List FrameInput) (s : State) (hskp : ∀ x, i ≠ .skp x)
    (hsknp : ∀ x, i ≠ .sknp x) (hrnd : ∀ x nn, i ≠ .rnd x nn) :
    exec i (s.withInputs l) = andThen (exec i s) (·.withInputs l) := by
  cases i with
  | skp x => exact absurd rfl (hskp x)
  | sknp x => exact absurd rfl (hsknp x)
  | rnd x nn => exact absurd rfl (hrnd x nn)
  | call _ => exact next_congr (State.pushAndJump_withInputs l s _)
  | ret => exact next_congr (State.popAndReturn_withInputs l s)
  | ldB _ | stRegs _ =>
    exact next_congr (congrArg State.advance (State.writeBytes_withInputs l _ s s.i.toNat))
  | ldRegs _ => exact next_congr (congrArg State.advance (State.setRegsFrom_withInputs l _ s 0))
  | _ => rfl

end Sys2Proof.Machine

namespace Sys2Proof.Proofs

open Sys2Proof.Machine

/-- Settles O7. -/
theorem stepRunsDecodedInstruction : Obligations.StepRunsDecodedInstruction := by
  intro s i hready hi
  rw [step_of_ready_word hready, executeWord_of_ok hi]

/-- Settles O8: the pulse and the advance write `diag` and `PC` alone. -/
theorem unrecognisedWordIsSkipped : Obligations.UnrecognisedWordIsSkipped := by
  intro s e hready he
  rw [step_of_ready_word hready, executeWord_of_error he, andThen_next, ← State.beforeInstruction_pc s]
  rfl

/-- Settles O9, by what the bounds check does inside the program, outside it, and after a halt. -/
theorem boundsCheckAfterEveryWord : Obligations.BoundsCheckAfterEveryWord := by
  intro s
  obtain ⟨u, hu⟩ := executeWord_answers_next s.fetchWord s
  refine ⟨u, hu, ?_, ?_⟩ <;> rw [executeOne_of_next hu]
  · rintro ⟨hs, hout⟩
    rw [u.boundsCheck_of_outside (u.pcOutside_iff.mpr hout) hs]
  · rintro (hs | hin)
    · rw [u.boundsCheck_of_halted hs]
    · rw [State.boundsCheck_of_pcInProgram hin]

/-- Settles O11: one halted frame by its own shape, a run of them by `run_keeps`. -/
theorem haltedFrameChangesNothing : Obligations.HaltedFrameChangesNothing := by
  intro s hs
  refine ⟨⟨s.haltedFrame, step_of_halted hs, rfl, rfl, rfl⟩, fun n t hrun => ?_⟩
  obtain ⟨hstatus, hpc⟩ := run_of_halted_keeps_status_pc hs hrun
  exact ⟨hstatus, hpc, fun stop hend => hs (hstatus ▸ hend.1)⟩

/-- Settles O12, by what key delivery does. -/
theorem waitingFrameDeliversKey : Obligations.WaitingFrameDeliversKey := by
  intro s hs
  have hstay : (∀ k, s.frameInput.key = some k → 15 < k.toNat) →
      s.waitingFrame.awaiting = true ∧ ∀ r, s.waitingFrame.reg r = s.reg r :=
    fun h => hs.2 ▸ State.waitingFrame_of_no_key h
  refine ⟨s.waitingFrame, step_of_waiting hs, fun k => State.waitingFrame_of_key,
    fun hnone => hstay (by simp [hnone]), fun k hk hlt => hstay (by simpa [hk] using hlt), ?_,
    s.waitingFrame_diag, s.waitingFrame_eq⟩
  exact State.memRead_congr (by rw [s.waitingFrame_eq]) (by rw [s.waitingFrame_eq])

/-- Settles O13. -/
theorem idleFrameOnlyAccumulates : Obligations.IdleFrameOnlyAccumulates := by
  intro s hs
  refine ⟨_, step_of_idle hs, ?_, ?_, ?_⟩
  · simp [State.finishFrame]
  · simp [State.finishFrame]
  · simp [State.finishFrame, State.endFrame]

/-- Settles O22: the parts of each kind of frame, one after the other; a ready frame executes once. -/
theorem frameIsInterleaving : Obligations.FrameIsInterleaving := by
  intro s t h
  obtain ⟨-, rfl⟩ | ⟨hwait, rfl⟩ | ⟨hidle, rfl⟩ | ⟨hready, u, hu, rfl⟩ := step_cases h
  · exact ⟨0, Nat.zero_le _, (Interleaving.done s).time rfl⟩
  · have hkey := (Interleaving.done s).clearPulses.deliverKey hwait
    exact ⟨0, Nat.zero_le _, (hkey.timerDecay (by simpa using hwait.1)).finishFrame⟩
  · have htimers := (Interleaving.done s).clearPulses.timerDecay hidle.1
    exact ⟨0, Nat.zero_le _, (htimers.setAccInstr _).finishFrame⟩
  · have hbefore := (Interleaving.done s).beforeInstruction hready.1
    have hone : executeOne s.beforeInstruction = .next u.boundsCheck :=
      executeOne_of_next (by simpa using hu)
    exact ⟨1, Nat.le_refl _,
      (hbefore.execute (by simpa using hready.1) (by simpa using hready.2.1) hone).finishFrame⟩

/-- Settles O23. -/
theorem onlyKeySkipsAndRandomReadInputs : Obligations.OnlyKeySkipsAndRandomReadInputs := by
  intro i s t l hskp hsknp hrnd h
  have hcomm := exec_withInputs l s hskp hsknp hrnd
  rwa [h] at hcomm

end Sys2Proof.Proofs
end

section
/-! PROOFS. Control transfer (41_control_flow.md R110 to R118): the linkage on a stack with room, with an
entry, full and empty; the skips; the obligations O35 to O41. -/

namespace Sys2Proof.Machine

variable (s : State)

/-! ### Raising (60_exceptions.md R166) -/

/-- All that raising does: it sets the status of a running machine, and nothing else of any. -/
theorem State.raise_sets_status_if_running (e : Status) :
    (s.status = .none → (s.raise e).status = e) ∧
    (s.status ≠ .none → (s.raise e).status = s.status) ∧
    s.raise e = { s with status := (s.raise e).status } :=
  ⟨fun h => by rw [s.raise_of_running h], fun h => by rw [s.raise_of_halted h], s.raise_eq e⟩

/-! ### The linkage (R111, R112) -/

/-- A push at the entry `k` leaves `PC` in it and `SP` above it. -/
theorem State.pushAndJump_of_free (w : Word) {k : Fin 16} (hk : s.sp.val = k.val) :
    s.pushAndJump w = { s with stack := s.stack.set k.val s.pc, sp := k.succ, pc := w } := by
  rw [s.pushAndJump_of_room w (by omega)]
  simp only [hk]
  rfl

/-- A pop of the entry `k` leaves `SP` at it and continues 2 bytes after what it holds. -/
theorem State.popAndReturn_of_top {k : Fin 16} (hk : s.sp.val = k.val + 1) :
    s.popAndReturn = { s with sp := k.castSucc, pc := s.stack[k] + 2 } := by
  have hpop : s.sp.val - 1 = k.val := by omega
  rw [s.popAndReturn_of_entry (by omega)]
  simp only [hpop]
  rfl

/-! ### The skips (R96) -/

theorem State.skipIf_of_holds {c : Bool} (h : c = true) : s.skipIf c = { s with pc := s.pc + 4 } := by
  rw [State.skipIf, if_pos h]

theorem State.skipIf_of_fails {c : Bool} (h : c = false) : s.skipIf c = { s with pc := s.pc + 2 } := by
  rw [State.skipIf, if_neg (Bool.not_eq_true c ▸ h)]

/-- The two skips on one comparison of bytes, on equality and on inequality, are opposite. -/
theorem skips_on_comparison (a b : Byte) :
    (a = b → (.next (s.skipIf (decide (a = b))) : Outcome) = .next { s with pc := s.pc + 4 } ∧
      (.next (s.skipIf (decide (a ≠ b))) : Outcome) = .next { s with pc := s.pc + 2 }) ∧
    (a ≠ b → (.next (s.skipIf (decide (a = b))) : Outcome) = .next { s with pc := s.pc + 2 } ∧
      (.next (s.skipIf (decide (a ≠ b))) : Outcome) = .next { s with pc := s.pc + 4 }) :=
  ⟨fun h => ⟨next_congr (s.skipIf_of_holds (decide_eq_true h)),
      next_congr (s.skipIf_of_fails (decide_eq_false (not_not_intro h)))⟩,
    fun h => ⟨next_congr (s.skipIf_of_fails (decide_eq_false h)),
      next_congr (s.skipIf_of_holds (decide_eq_true h))⟩⟩

/-! ### The target of JP_V0 (R117) -/

/-- A byte and a 12-bit address add up without a wrap in 16 bits (D12). -/
theorem byteOperand_add_addrOperand_toNat (b : Byte) (nnn : Addr) :
    (byteOperand b + addrOperand nnn).toNat = b.toNat + nnn.toNat := by
  have hb := b.isLt
  have hnnn := nnn.isLt
  rw [BitVec.toNat_add, byteOperand_toNat, addrOperand_toNat, Nat.mod_eq_of_lt (by omega)]

end Sys2Proof.Machine

namespace Sys2Proof.Proofs

open Sys2Proof.Machine

/-- Settles O35, by what the bounds check does after the jump. -/
theorem jumpSetsCounterToOperand : Obligations.JumpSetsCounterToOperand := by
  intro nnn s
  refine ⟨s.jumpTo (addrOperand nnn), rfl, addrOperand_toNat nnn, rfl, fun hrun hout => ?_⟩
  exact State.boundsCheck_of_outside _ (by simpa [State.pcOutside] using hout) hrun

/-- Settles O36: the push on a stack with room, the raise on a full one. -/
theorem callPushesItsAddressOrOverflows : Obligations.CallPushesItsAddressOrOverflows := by
  intro nnn s
  constructor
  · intro k hk
    refine ⟨_, next_congr (s.pushAndJump_of_free _ hk), Vector.getElem_set_self .., fun j hj => ?_, rfl,
      addrOperand_toNat nnn, rfl⟩
    exact Vector.getElem_set_ne k.isLt j.isLt (fun e => hj (Fin.ext e.symm))
  · intro hfull
    exact ⟨s.raise .stackOverflow, next_congr (s.pushAndJump_of_full _ hfull),
      s.raise_sets_status_if_running _⟩

/-- Settles O37: the pop of the top entry, the raise on an empty stack. -/
theorem returnContinuesAfterCallOrUnderflows : Obligations.ReturnContinuesAfterCallOrUnderflows := by
  intro s
  constructor
  · intro k hk
    exact ⟨_, next_congr (s.popAndReturn_of_top hk), rfl, BitVec.toNat_add .., rfl⟩
  · intro hempty
    exact ⟨s.raise .stackUnderflow, next_congr (s.popAndReturn_of_empty hempty),
      s.raise_sets_status_if_running _⟩

/-- Settles O38: both skips compare `V[X]` with the immediate. -/
theorem skipsCompareWithImmediate : Obligations.SkipsCompareWithImmediate :=
  fun x nn s => skips_on_comparison s (s.reg x) nn

/-- Settles O39: both skips compare `V[X]` with `V[Y]`. -/
theorem skipsCompareRegisters : Obligations.SkipsCompareRegisters :=
  fun x y s => skips_on_comparison s (s.reg x) (s.reg y)

/-- Settles O40: the 16-bit sum does not wrap. -/
theorem jumpWithOffsetAddsRegisterZero : Obligations.JumpWithOffsetAddsRegisterZero :=
  fun nnn s => ⟨s.jumpTo (byteOperand (s.reg 0) + addrOperand nnn), rfl,
    byteOperand_add_addrOperand_toNat (s.reg 0) nnn, rfl⟩

/-- Settles O41: the diagnostic shows the operand, which is SYS's canonical word. -/
theorem sysIsConsumed : Obligations.SysIsConsumed := by
  intro nnn s
  have hword : encode (.sys nnn) = addrOperand nnn := wordAddr_zero nnn
  refine ⟨(s.pulseDiagIf s.cfg.sysDiag (addrOperand nnn)).advance, rfl, fun h => ?_, fun h => ?_, rfl⟩
  · simp [h, hword]
  · simp [h]

end Sys2Proof.Proofs
end

section
/-! PROOFS. Register loads and arithmetic (42_load_alu.md R125 to R138): the frame of an instruction that
writes one register and of one that writes a result and a flag; the obligations O42 to O48. -/

namespace Sys2Proof.Machine

variable (s : State)

/-! ### What the two kinds of register writes leave -/

/-- An instruction that writes `V[x]` alone leaves every other register, and beside them it moves `PC`
only. -/
theorem State.setReg_advance_frame (x : RegNum) (b : Byte) :
    (∀ r, r ≠ x → (s.setReg x b).advance.reg r = s.reg r) ∧
    (s.setReg x b).advance = { s with v := (s.setReg x b).advance.v, pc := s.pc + 2 } :=
  ⟨fun _ hr => s.reg_setReg_of_ne b hr, rfl⟩

/-- An instruction that writes a result and a flag leaves every register but `V[x]` and `VF`, and beside
them it moves `PC` only (R138). -/
theorem State.setResultFlag_advance_frame (x : RegNum) (b f : Byte) :
    (∀ r, r ≠ x → r ≠ regF → (s.setResultFlag x b f).advance.reg r = s.reg r) ∧
    (s.setResultFlag x b f).advance =
      { s with v := (s.setResultFlag x b f).advance.v, pc := s.pc + 2 } :=
  ⟨fun _ hx hf => s.reg_setResultFlag_of_ne b f hx hf, rfl⟩

/-- A result register that is not `VF` keeps its result under the flag written last (R138). -/
theorem State.toNat_reg_setResultFlag_advance {x : RegNum} (b f : Byte) (hx : x ≠ regF) :
    ((s.setResultFlag x b f).advance.reg x).toNat = b.toNat :=
  congrArg BitVec.toNat (s.reg_setResultFlag_result b f hx)

/-! ### The flags (10_state.md R21) -/

theorem flagByte_decide (p : Prop) [Decidable p] : flagByte (decide p) = if p then 1 else 0 := by
  by_cases h : p <;> simp [flagByte, h]

/-- The carry is that of the exact sum (R131). -/
theorem carryFlag_eq (a b : Byte) : carryFlag a b = if 255 < a.toNat + b.toNat then 1 else 0 :=
  flagByte_decide _

/-- No borrow is a strictly greater minuend, unsigned (R132, R133). -/
theorem noBorrowFlag_eq (a b : Byte) : noBorrowFlag a b = if b.toNat < a.toNat then 1 else 0 :=
  flagByte_decide _

/-- The subtraction of `b` from `a`, in either order of the operands (R132, R133): the flag stands in `VF`
for every `X`, and the difference is narrowed to a byte. -/
theorem State.subtraction_advance (x : RegNum) (a b : Byte) :
    let t := (s.setResultFlag x (subByte a b) (noBorrowFlag a b)).advance
    t.reg regF = (if b.toNat < a.toNat then 1 else 0) ∧
    (x ≠ regF → (t.reg x).toNat = (256 + a.toNat - b.toNat) % 256) ∧
    (∀ r, r ≠ x → r ≠ regF → t.reg r = s.reg r) ∧ t = { s with v := t.v, pc := s.pc + 2 } := by
  refine ⟨?_, fun hx => ?_, s.setResultFlag_advance_frame x _ _⟩
  · rw [State.reg_advance, State.reg_setResultFlag_flag, noBorrowFlag_eq]
  · rw [State.toNat_reg_setResultFlag_advance _ _ _ hx, subByte_toNat]

end Sys2Proof.Machine

namespace Sys2Proof.Proofs

open Sys2Proof.Machine

/-- Settles O42: both loads write one register. -/
theorem loadsCopyByte : Obligations.LoadsCopyByte :=
  fun x y nn s =>
    ⟨⟨_, rfl, s.reg_setReg_self x nn, s.setReg_advance_frame x nn⟩,
      ⟨_, rfl, s.reg_setReg_self x (s.reg y), s.setReg_advance_frame x (s.reg y)⟩⟩

/-- Settles O43: the sum is narrowed to a byte, and the status is in the frame. -/
theorem addImmediateWraps : Obligations.AddImmediateWraps := by
  intro x nn s
  refine ⟨_, rfl, ?_, s.setReg_advance_frame x _⟩
  rw [State.reg_advance, State.reg_setReg_self, addByte_toNat]

/-- Settles O44, bit by bit. -/
theorem bitwiseOperationsWorkBitByBit : Obligations.BitwiseOperationsWorkBitByBit := by
  intro x y s
  refine ⟨⟨_, rfl, fun k => ?_, s.setReg_advance_frame x _⟩,
    ⟨_, rfl, fun k => ?_, s.setReg_advance_frame x _⟩,
    ⟨_, rfl, fun k => ?_, s.setReg_advance_frame x _⟩⟩
  · rw [State.reg_advance, State.reg_setReg_self, BitVec.getLsbD_or]
  · rw [State.reg_advance, State.reg_setReg_self, BitVec.getLsbD_and]
  · rw [State.reg_advance, State.reg_setReg_self, BitVec.getLsbD_xor]

/-- Settles O45: the carry is written last, so it stands in `VF` for every `X`. -/
theorem addSetsSumAndCarry : Obligations.AddSetsSumAndCarry := by
  intro x y s
  refine ⟨_, rfl, ?_, fun hx => ?_, s.setResultFlag_advance_frame x _ _⟩
  · rw [State.reg_advance, State.reg_setResultFlag_flag, carryFlag_eq]
  · rw [State.toNat_reg_setResultFlag_advance _ _ _ hx, addByte_toNat]

/-- Settles O46: SUB has the minuend `V[X]`, SUBN has `V[Y]`. -/
theorem subtractionsSetDifferenceAndNoBorrow : Obligations.SubtractionsSetDifferenceAndNoBorrow :=
  fun x y s => ⟨⟨_, rfl, s.subtraction_advance x (s.reg x) (s.reg y)⟩,
    ⟨_, rfl, s.subtraction_advance x (s.reg y) (s.reg x)⟩⟩

/-- Settles O47: the bit shifted out is bit 0 on the right, bit 7 on the left. -/
theorem shiftsMoveOnePlace : Obligations.ShiftsMoveOnePlace := by
  intro x s
  refine ⟨⟨_, rfl, ?_, fun hx => ?_, s.setResultFlag_advance_frame x _ _⟩,
    ⟨_, rfl, ?_, fun hx => ?_, s.setResultFlag_advance_frame x _ _⟩⟩
  · rw [State.reg_advance, State.reg_setResultFlag_flag, shiftedOutRight_toNat]
  · rw [State.toNat_reg_setResultFlag_advance _ _ _ hx, shiftRight_toNat]
  · rw [State.reg_advance, State.reg_setResultFlag_flag, shiftedOutLeft_toNat]
  · rw [State.toNat_reg_setResultFlag_advance _ _ _ hx, shiftLeft_toNat]

/-- Settles O48: the masked byte goes to `V[X]` as it is. -/
theorem randomIsMasked : Obligations.RandomIsMasked :=
  fun x _ s => ⟨_, rfl, s.reg_setReg_self x _, s.setReg_advance_frame x _⟩

end Sys2Proof.Proofs
end

section
/-! PROOFS. The index register and memory transfers (43_index_memory.md R140 to R145): what a store
at the index and a load from it leave, byte by byte; the obligations O49 to O54. -/

namespace Sys2Proof.Machine

variable (s : State)

/-! ### The index register (R142) -/

/-- The address of a digit's glyph fits in `I`. -/
theorem State.fontAddr_toNat_of_digit {b : Byte} (hb : b.toNat ≤ 15) :
    (s.fontAddr b).toNat = 5 * b.toNat := by
  rw [State.fontAddr, if_pos hb, BitVec.toNat_ofNat, Nat.mod_eq_of_lt (by omega)]

/-! ### A store at the index (R143, R144) -/

@[simp] theorem State.memRead_advance (a : Nat) : s.advance.memRead a = s.memRead a := rfl

/-- No byte of a store of at most 4096 wraps onto another: byte `k` stands at `EA(k)` (R50). -/
theorem State.memRead_storeAtIndex_effAddr {bs : List Byte} {k : Nat} (hlen : bs.length ≤ 4096)
    (hk : k < bs.length) : (s.storeAtIndex bs).memRead (s.effAddr k) = bs[k] := by
  rw [State.effAddr, maskAddr, State.memRead_mask]
  exact s.memRead_writeBytes_inside bs s.i.toNat k hlen hk

/-- Beside the bytes it stores, a store at the index moves `PC` only; `I` stays (D22). -/
theorem State.storeAtIndex_advance_eq (bs : List Byte) :
    (s.storeAtIndex bs).advance =
      { s with mem := (s.storeAtIndex bs).advance.mem, pc := s.pc + 2 } := by
  rw [State.storeAtIndex, State.writeBytes_eq]
  rfl

/-- The digit of each place is below 256, so it is stored as it is. -/
theorem bcdDigits_map_toNat (b : Byte) :
    (bcdDigits b).map BitVec.toNat = [b.toNat / 100, b.toNat / 10 % 10, b.toNat % 10] := by
  have hb := b.isLt
  simp only [bcdDigits, List.map_cons, List.map_nil, BitVec.toNat_ofNat, List.cons.injEq,
    and_true]
  omega

/-- The register list holds `V[r]` at place `r`. -/
theorem State.regsUpTo_getElem (x r : RegNum) (hr : r.toNat < (s.regsUpTo x).length) :
    (s.regsUpTo x)[r.toNat] = s.reg r := by
  simp [State.regsUpTo]

/-! ### A load from the index (R145) -/

/-- A load of the bytes at the index into `V[0]` to `V[x]`: register `r` takes the byte at `EA(r)`. -/
theorem State.reg_setRegsFrom_loadAtIndex {x r : RegNum} (hr : r.toNat ≤ x.toNat) :
    (s.setRegsFrom 0 (s.loadAtIndex (x.toNat + 1))).reg r = s.memRead (s.effAddr r.toNat) := by
  have hx := x.isLt
  rw [State.reg_setRegsFrom _ _ 0 (by rw [State.loadAtIndex_length]; omega),
    dif_pos (by rw [State.loadAtIndex_length]; omega)]
  exact s.loadAtIndex_getElem _ _ _

/-- Beside the registers, a run of register writes and the advance move `PC` only; `I` stays (D22). -/
theorem State.setRegsFrom_advance_eq (k : Nat) (bs : List Byte) :
    (s.setRegsFrom k bs).advance = { s with v := (s.setRegsFrom k bs).advance.v, pc := s.pc + 2 } := by
  rw [State.setRegsFrom_eq]
  rfl

end Sys2Proof.Machine

namespace Sys2Proof.Proofs

open Sys2Proof.Machine

/-- Settles O49. -/
theorem loadIndexTakesOperand : Obligations.LoadIndexTakesOperand :=
  fun nnn _ => ⟨_, rfl, addrOperand_toNat nnn, rfl⟩

/-- Settles O50: the sum is taken in 16 bits, and the registers are in the frame. -/
theorem addToIndexWrapsWithoutFlag : Obligations.AddToIndexWrapsWithoutFlag := by
  intro x s
  refine ⟨(s.setI (s.i + byteOperand (s.reg x))).advance, rfl, ?_, rfl⟩
  rw [State.advance_i, State.setI_i, BitVec.toNat_add, byteOperand_toNat]

/-- Settles O51: whatever `I` takes, all else is in the frame. -/
theorem fontAddressOfDigit : Obligations.FontAddressOfDigit :=
  fun _ s => ⟨_, rfl, s.fontAddr_toNat_of_digit, rfl⟩

/-- Settles O52: the three stored bytes are the digits, place by place. -/
theorem bcdStoresThreeDigits : Obligations.BcdStoresThreeDigits := by
  intro x s
  have hdigit : ∀ (k : Nat) (hk : k < 3),
      ((s.storeAtIndex (bcdDigits (s.reg x))).memRead (s.effAddr k)).toNat =
        [(s.reg x).toNat / 100, (s.reg x).toNat / 10 % 10, (s.reg x).toNat % 10][k] := by
    intro k hk
    rw [s.memRead_storeAtIndex_effAddr (by simp) (by simpa using hk)]
    simp only [← bcdDigits_map_toNat, List.getElem_map]
  exact ⟨_, rfl, hdigit 0 (by decide), hdigit 1 (by decide), hdigit 2 (by decide),
    s.memRead_storeAtIndex_outside (bcdDigits (s.reg x)), s.storeAtIndex_advance_eq _⟩

/-- Settles O53: at most 16 registers are stored, `V[r]` at place `r` of the list. -/
theorem storeRegistersUpToX : Obligations.StoreRegistersUpToX := by
  intro x s
  have hx := x.isLt
  have hlen := s.regsUpTo_length x
  refine ⟨(s.storeAtIndex (s.regsUpTo x)).advance, rfl, fun r hr => ?_, fun a ha => ?_,
    s.storeAtIndex_advance_eq _⟩
  · rw [State.memRead_advance, s.memRead_storeAtIndex_effAddr (by omega) (by omega),
      State.regsUpTo_getElem]
  · exact s.memRead_storeAtIndex_outside _ a fun k hk => ha k (by omega)

/-- Settles O54: the registers up to `V[X]` by the load, those above by the frame of LD_REGS. -/
theorem loadRegistersUpToX : Obligations.LoadRegistersUpToX := by
  intro x s
  refine ⟨(s.setRegsFrom 0 (s.loadAtIndex (x.toNat + 1))).advance, rfl,
    fun _ hr => s.reg_setRegsFrom_loadAtIndex hr, fun _ hr => exec_ldRegs_reg rfl hr,
    State.memRead_congr ?_ ?_, s.setRegsFrom_advance_eq _ _⟩
  · rw [State.advance_mem, State.setRegsFrom_mem]
  · rw [State.advance_cfg, State.setRegsFrom_cfg]

end Sys2Proof.Proofs
end

section
/-! PROOFS. The display (44_display.md R150 to R152): which pixels a draw flips and what its two marks
say, in terms of the pixels its sprite hits; what a draw leaves of its own sprite; the obligations O55 to
O57. -/

namespace Sys2Proof.Machine

variable {s t : State} {x y : RegNum} {n : Nibble}

/-! ### The canvas of a draw (R150, R152) -/

/-- The set dots of a sprite and the pixels it hits have the same places, once the dots are wrapped. -/
theorem State.exists_spriteDot_iff (P : Nat → Nat → Prop) :
    (∃ d ∈ s.spriteDots x y n, d.b = true ∧ P (d.x % 64) (d.y % 32)) ↔
      ∃ px < 64, ∃ py < 32, s.spriteHits x y n px py ∧ P px py := by
  simp only [← State.spriteDots_at_iff]
  constructor
  · rintro ⟨d, hd, hb, hP⟩
    exact ⟨d.x % 64, Nat.mod_lt _ (by decide), d.y % 32, Nat.mod_lt _ (by decide),
      ⟨d, hd, hb, rfl, rfl⟩, hP⟩
  · rintro ⟨_, -, _, -, ⟨d, hd, hb, rfl, rfl⟩, hP⟩
    exact ⟨d, hd, hb, hP⟩

theorem State.drawn_pixel {px py : Nat} (hx : px < 64) (hy : py < 32) :
    (s.spriteHits x y n px py → (s.drawn x y n).fb.pixel px py = !s.pixel px py) ∧
    (¬ s.spriteHits x y n px py → (s.drawn x y n).fb.pixel px py = s.pixel px py) := by
  rw [State.drawn_eq_foldl, ← State.spriteDots_at_iff]
  exact (foldl_plotDot _ (s.spriteDots_apart x y n) ⟨s.fb, false, false⟩).1 px py hx hy

/-- The collision compares with the display before the draw: no dot sees what another one did. -/
theorem State.drawn_collided_iff :
    (s.drawn x y n).collided = true ↔
      ∃ px < 64, ∃ py < 32, s.spriteHits x y n px py ∧ s.pixel px py = true := by
  obtain ⟨-, hcollided, -⟩ := foldl_plotDot _ (s.spriteDots_apart x y n) ⟨s.fb, false, false⟩
  rw [State.drawn_eq_foldl, hcollided,
    ← State.exists_spriteDot_iff (fun px py => s.pixel px py = true)]
  simp [State.pixel]

theorem State.drawn_toggled_iff :
    (s.drawn x y n).toggled = true ↔ ∃ px < 64, ∃ py < 32, s.spriteHits x y n px py := by
  obtain ⟨-, -, htoggled⟩ := foldl_plotDot _ (s.spriteDots_apart x y n) ⟨s.fb, false, false⟩
  have hdots := State.exists_spriteDot_iff (s := s) (x := x) (y := y) (n := n) (fun _ _ => True)
  rw [State.drawn_eq_foldl, htoggled]
  simpa using hdots

/-! ### The state after a draw (R152) -/

theorem exec_drw_pixel {px py : Nat} (h : exec (.drw x y n) s = .next t) (hx : px < 64)
    (hy : py < 32) :
    (s.spriteHits x y n px py → t.pixel px py = !s.pixel px py) ∧
    (¬ s.spriteHits x y n px py → t.pixel px py = s.pixel px py) := by
  cases next_inj h
  exact State.drawn_pixel hx hy

theorem exec_drw_flag (h : exec (.drw x y n) s = .next t) :
    t.reg regF = flagByte (s.drawn x y n).collided := by
  cases next_inj h
  exact State.reg_setReg_self ..

/-- The flag is 1 on a collision. -/
theorem exec_drw_flag_of_collision (h : exec (.drw x y n) s = .next t)
    (hc : ∃ px < 64, ∃ py < 32, s.spriteHits x y n px py ∧ s.pixel px py = true) :
    t.reg regF = 1 := by
  rw [exec_drw_flag h, State.drawn_collided_iff.mpr hc]
  rfl

/-- The flag is 0 when the sprite falls on clear pixels only. -/
theorem exec_drw_flag_of_clear (h : exec (.drw x y n) s = .next t)
    (hc : ∀ px < 64, ∀ py < 32, s.spriteHits x y n px py → s.pixel px py = false) :
    t.reg regF = 0 := by
  have hno : (s.drawn x y n).collided = false := by
    rw [Bool.eq_false_iff, ne_eq, State.drawn_collided_iff]
    rintro ⟨px, hx, py, hy, hhit, hset⟩
    simp [hc px hx py hy hhit] at hset
  rw [exec_drw_flag h, hno]
  rfl

/-- A draw leaves its own sprite where it was, unless the flag it writes is a coordinate: `I`, memory and
the other registers stay. -/
theorem exec_drw_spriteHits (h : exec (.drw x y n) s = .next t) (hx : x ≠ regF) (hy : y ≠ regF)
    (px py : Nat) : t.spriteHits x y n px py ↔ s.spriteHits x y n px py := by
  have hbyte : ∀ k, t.memRead (t.effAddr k) = s.memRead (s.effAddr k) := by
    cases next_inj h
    exact fun _ => rfl
  simp only [State.spriteHits, exec_drw_reg h hx, exec_drw_reg h hy, hbyte]

end Sys2Proof.Machine

namespace Sys2Proof.Proofs

open Sys2Proof.Machine

/-- Settles O55. -/
theorem clearBlanksEveryPixel : Obligations.ClearBlanksEveryPixel := by
  intro s
  refine ⟨s.clearDisplay.advance, rfl, fun px _ py _ => Display.pixel_blank px py, ?_, rfl⟩
  calc (s.dirty || s.fb.anySet) = true
    _ ↔ s.dirty = true ∨ s.fb.anySet = true := Bool.or_eq_true_iff
    _ ↔ _ := or_congr_right s.fb.anySet_iff

/-- Settles O56: the canvas after the loops gives the pixels and both marks. -/
theorem drawTogglesSpritePixels : Obligations.DrawTogglesSpritePixels := by
  intro x y n s
  obtain ⟨t, ht⟩ : ∃ t, exec (.drw x y n) s = .next t := ⟨_, rfl⟩
  refine ⟨t, ht, fun px hx py hy => exec_drw_pixel ht hx hy, exec_drw_flag_of_collision ht,
    exec_drw_flag_of_clear ht, ?_, fun r hr => exec_drw_reg ht hr, ?_⟩
  · cases next_inj ht
    exact Bool.or_eq_true_iff.trans (or_congr_right State.drawn_toggled_iff)
  · cases next_inj ht
    exact ⟨fun _ => rfl, rfl⟩

/-- Settles O57: the second draw hits the pixels the first one hit, and flips each of them back. -/
theorem drawingTwiceRestoresDisplay : Obligations.DrawingTwiceRestoresDisplay := by
  intro x y n s t u hx hy hst htu
  have hsame := exec_drw_spriteHits hst hx hy
  constructor
  · refine Display.ext_pixel fun px hpx py hpy => ?_
    obtain ⟨hflip, hkeep⟩ := exec_drw_pixel hst hpx hpy
    obtain ⟨hflip', hkeep'⟩ := exec_drw_pixel htu hpx hpy
    show u.pixel px py = s.pixel px py
    by_cases hhit : s.spriteHits x y n px py
    · rw [hflip' ((hsame px py).mpr hhit), hflip hhit, Bool.not_not]
    · rw [hkeep' (hhit ∘ (hsame px py).mp), hkeep hhit]
  · rintro ⟨px, hpx, py, hpy, hhit, hclear⟩
    refine exec_drw_flag_of_collision htu ⟨px, hpx, py, hpy, (hsame px py).mpr hhit, ?_⟩
    rw [(exec_drw_pixel hst hpx hpy).1 hhit, hclear, Bool.not_false]

end Sys2Proof.Proofs
end

section
/-! PROOFS. The keypad and the timers (45_input_timers.md R155 to R160): when a byte names a held key and
when it does not; the obligations O58 to O60. -/

namespace Sys2Proof.Machine

variable (s : State)

/-! ### The held keys (R155, R156) -/

theorem State.keyDown_eq_true_iff (b : Byte) :
    s.keyDown b = true ↔ b.toNat ≤ 15 ∧ s.frameInput.keys.getLsbD b.toNat = true := by
  rw [State.keyDown, Bool.and_eq_true, decide_eq_true_iff]

/-- A key is not down when the byte names none (D23) or the key it names is not held. -/
theorem State.keyDown_eq_false_iff (b : Byte) :
    s.keyDown b = false ↔ 15 < b.toNat ∨ s.frameInput.keys.getLsbD b.toNat = false := by
  rw [State.keyDown, Bool.and_eq_false_iff, decide_eq_false_iff_not, not_le]

end Sys2Proof.Machine

namespace Sys2Proof.Proofs

open Sys2Proof.Machine

/-- Settles O58: SKP skips on the key being down, SKNP on its negation. -/
theorem keySkipsReadHeldKeys : Obligations.KeySkipsReadHeldKeys := by
  intro x s
  constructor
  · intro hheld
    have hdown : s.keyDown (s.reg x) = true := (s.keyDown_eq_true_iff _).mpr hheld
    exact ⟨next_congr (s.skipIf_of_holds hdown),
      next_congr (s.skipIf_of_fails (congrArg not hdown))⟩
  · intro hnone
    have hup : s.keyDown (s.reg x) = false := (s.keyDown_eq_false_iff _).mpr hnone
    exact ⟨next_congr (s.skipIf_of_fails hup),
      next_congr (s.skipIf_of_holds (congrArg not hup))⟩

/-- Settles O59: the read writes one register; the loads are the model's updates of a timer and its
accumulator, spelled out. -/
theorem timerLoadsAndReads : Obligations.TimerLoadsAndReads :=
  fun x s => ⟨⟨_, rfl, s.reg_setReg_self x s.dt, s.setReg_advance_frame x s.dt⟩, rfl, rfl⟩

/-- Settles O60: the wait is set and `PC` advanced in one update, which names no register. -/
theorem awaitKeySuspendsAfterAdvance : Obligations.AwaitKeySuspendsAfterAdvance :=
  fun _ _ => rfl

end Sys2Proof.Proofs
end

section
/-! PROOFS. Exceptions and time (60_exceptions.md): raising and what halts a running machine, O10 and O25;
the countdowns and the redraw cadence of a frame, O14, O15 and O16; the wait for a key, O24. -/

namespace Sys2Proof.Machine

variable {s t u : State} {i : Instr} {w : Word}

/-! ### What the end of a frame leaves (R180) -/

@[simp] theorem State.finishFrame_status (s : State) : s.finishFrame.status = s.status := by
  simp [State.finishFrame]

@[simp] theorem State.finishFrame_pc (s : State) : s.finishFrame.pc = s.pc := by
  simp [State.finishFrame]

@[simp] theorem State.finishFrame_progEnd (s : State) : s.finishFrame.progEnd = s.progEnd := by
  simp [State.finishFrame]

@[simp] theorem State.finishFrame_awaiting (s : State) : s.finishFrame.awaiting = s.awaiting := by
  simp [State.finishFrame]

@[simp] theorem State.finishFrame_target (s : State) : s.finishFrame.target = s.target := by
  simp [State.finishFrame]

/-! ### What halts a running machine (R165) -/

/-- CALL with a full stack and RET with an empty one are the only instructions that halt; both leave `PC`. -/
theorem exec_halt_cases (h : exec i s = .next t) (hs : s.status = .none) :
    t.status = .none ∨
    (t.status = .stackOverflow ∧ s.sp.val = 16 ∧ t.pc = s.pc ∧ ∃ nnn, i = .call nnn) ∨
    (t.status = .stackUnderflow ∧ s.sp.val = 0 ∧ t.pc = s.pc ∧ i = .ret) := by
  cases i with
  | call nnn =>
    cases next_inj h
    by_cases hroom : s.sp.val < 16
    · exact .inl (by simp [hroom, hs])
    · have hfull : s.sp.val = 16 := by omega
      exact .inr (.inl (by simp [s.pushAndJump_of_full _ hfull, hs, hfull]))
  | ret =>
    cases next_inj h
    by_cases hentry : 0 < s.sp.val
    · exact .inl (by simp [hentry, hs])
    · have hempty : s.sp.val = 0 := by omega
      exact .inr (.inr (by simp [s.popAndReturn_of_empty hempty, hs, hempty]))
  | _ => exact .inl ((exec_status_of_not_linkage h nofun nofun).trans hs)

/-- An unrecognised word halts nothing (40_execution_cycle.md R98), so a word halts as its instruction does. -/
theorem executeWord_halt_cases (h : executeWord w s = .next t) (hs : s.status = .none) :
    t.status = .none ∨
    (t.status = .stackOverflow ∧ s.sp.val = 16 ∧ t.pc = s.pc ∧ ∃ nnn, decodeWord w = .ok (.call nnn)) ∨
    (t.status = .stackUnderflow ∧ s.sp.val = 0 ∧ t.pc = s.pc ∧ decodeWord w = .ok .ret) := by
  obtain ⟨i, hi, he⟩ | rfl := executeWord_cases h
  · obtain hnone | ⟨hover, hsp, hpc, nnn, rfl⟩ | ⟨hunder, hsp, hpc, rfl⟩ := exec_halt_cases he hs
    · exact .inl hnone
    · exact .inr (.inl ⟨hover, hsp, hpc, nnn, hi⟩)
    · exact .inr (.inr ⟨hunder, hsp, hpc, hi⟩)
  · exact .inl hs

/-- A frame of a running machine halts it only in the instruction of a ready frame or in the bounds check
after it. -/
theorem step_halt_cases (h : step s = .next t) (hs : s.status = .none) :
    t.status = .none ∨
    s.ready ∧
      ((t.status = .stackOverflow ∧ s.sp.val = 16 ∧ t.pc = s.pc ∧
          ∃ nnn, decodeWord s.fetchWord = .ok (.call nnn)) ∨
        (t.status = .stackUnderflow ∧ s.sp.val = 0 ∧ t.pc = s.pc ∧ decodeWord s.fetchWord = .ok .ret) ∨
        (t.status = .outOfBounds ∧ ¬ t.pcInProgram)) := by
  obtain ⟨hhalt, -⟩ | ⟨-, rfl⟩ | ⟨-, rfl⟩ | ⟨hready, u, hu, rfl⟩ := step_cases h
  · exact absurd hs hhalt
  · exact .inl (by simpa [State.waitingFrame] using hs)
  · exact .inl (by simpa using hs)
  · obtain hsame | ⟨-, hout, hhalts⟩ := u.boundsCheck_cases
    · have hword := executeWord_halt_cases hu (by simpa using hs)
      simp only [State.beforeInstruction_sp, State.beforeInstruction_pc] at hword
      simp only [hsame, State.finishFrame_status, State.finishFrame_pc]
      obtain hnone | hover | hunder := hword
      · exact .inl hnone
      · exact .inr ⟨hready, .inl hover⟩
      · exact .inr ⟨hready, .inr (.inl hunder)⟩
    · refine .inr ⟨hready, .inr (.inr ⟨by simp [hhalts], ?_⟩)⟩
      simpa [State.pcInProgram] using u.pcOutside_iff.mp hout

/-! ### The wait for a key (R185) -/

/-- The word of a frame starts a wait only when it is LD_VX_K, whose `X` becomes the target. -/
theorem executeWord_wait_starts (h : executeWord w s = .next t) (hs : s.awaiting = false)
    (ht : t.awaiting = true) : ∃ x, decodeWord w = .ok (.ldVxK x) ∧ t.target = x := by
  obtain ⟨i, hi, he⟩ | rfl := executeWord_cases h
  · cases i with
    | ldVxK x => cases next_inj he; exact ⟨x, hi, rfl⟩
    | _ =>
      have hkeep := (exec_wait_of_not_ldVxK he nofun).1
      simp [hkeep, hs] at ht
  · simp [hs] at ht

/-- A frame starts a wait only by its instruction: delivery ends waits, and no other part touches them. -/
theorem step_wait_starts (h : step s = .next t) (hs : s.awaiting = false) (ht : t.awaiting = true) :
    s.ready ∧ ∃ x, decodeWord s.fetchWord = .ok (.ldVxK x) ∧ t.target = x := by
  obtain ⟨-, rfl⟩ | ⟨hwait, -⟩ | ⟨-, rfl⟩ | ⟨hready, u, hu, rfl⟩ := step_cases h
  · exact absurd (hs.symm.trans ht) nofun
  · exact absurd (hs.symm.trans hwait.2) nofun
  · simp [hs] at ht
  · obtain ⟨x, hx, htarget⟩ := executeWord_wait_starts hu (by simpa using hs) (by simpa using ht)
    exact ⟨hready, x, hx, by simpa using htarget⟩

/-- A wait ends only in a waiting frame that delivers a key 0 to 15; a halted frame delivers none. -/
theorem step_wait_ends (h : step s = .next t) (hs : s.awaiting = true) (ht : t.awaiting = false) :
    s.status = .none ∧ ∃ k, s.frameInput.key = some k ∧ k.toNat ≤ 15 ∧ t.reg s.target = k := by
  obtain ⟨-, rfl⟩ | ⟨hwait, rfl⟩ | ⟨hidle, -⟩ | ⟨hready, -⟩ := step_cases h
  · exact absurd (hs.symm.trans ht) nofun
  · obtain ⟨-, hno⟩ | ⟨k, hk, hle, -⟩ := s.deliverKey_cases
    · have hstay := (State.waitingFrame_of_no_key hno).1
      exact absurd (hs.symm.trans (hstay.symm.trans ht)) nofun
    · exact ⟨hwait.1, k, hk, hle, (State.waitingFrame_of_key hk hle).2.1⟩
  · exact absurd (hs.symm.trans hidle.2.1) nofun
  · exact absurd (hs.symm.trans hready.2.1) nofun

/-- While the machine waits nothing executes, so `PC` stays. -/
theorem step_pc_of_awaiting (h : step s = .next t) (hs : s.awaiting = true) : t.pc = s.pc := by
  obtain ⟨-, rfl⟩ | ⟨-, rfl⟩ | ⟨hidle, -⟩ | ⟨hready, -⟩ := step_cases h
  · rfl
  · simp [State.waitingFrame]
  · exact absurd (hs.symm.trans hidle.2.1) nofun
  · exact absurd (hs.symm.trans hready.2.1) nofun

/-! ### The countdowns (R177, R178) -/

/-- The timers of `t` are those of `s` after the two countdowns of the frame that `s` is about to run. -/
def State.CountedDown (s t : State) : Prop :=
  (s.cfg.timerPeriod ≤ s.accDelay + s.frameInput.elapsed →
    t.dt.toNat = s.dt.toNat - 1 ∧ t.accDelay = 0) ∧
  (s.accDelay + s.frameInput.elapsed < s.cfg.timerPeriod →
    t.dt = s.dt ∧ t.accDelay = s.accDelay + s.frameInput.elapsed) ∧
  (s.cfg.timerPeriod ≤ s.accSound + s.frameInput.elapsed →
    t.st.toNat = s.st.toNat - 1 ∧ t.accSound = 0) ∧
  (s.accSound + s.frameInput.elapsed < s.cfg.timerPeriod →
    t.st = s.st ∧ t.accSound = s.accSound + s.frameInput.elapsed)

theorem State.delayCountdown_of_due (h : s.cfg.timerPeriod ≤ s.accDelay + s.frameInput.elapsed) :
    s.delayCountdown = { s with dt := decrement s.dt, accDelay := 0 } := if_pos h

theorem State.delayCountdown_of_not_due (h : s.accDelay + s.frameInput.elapsed < s.cfg.timerPeriod) :
    s.delayCountdown = { s with accDelay := s.accDelay + s.frameInput.elapsed } :=
  if_neg (Nat.not_le.mpr h)

theorem State.soundCountdown_of_due (h : s.cfg.timerPeriod ≤ s.accSound + s.frameInput.elapsed) :
    s.soundCountdown = { s with st := decrement s.st, accSound := 0 } := if_pos h

theorem State.soundCountdown_of_not_due (h : s.accSound + s.frameInput.elapsed < s.cfg.timerPeriod) :
    s.soundCountdown = { s with accSound := s.accSound + s.frameInput.elapsed } :=
  if_neg (Nat.not_le.mpr h)

/-- The sound countdown sees the same time and the same sound timer after the delay countdown as before. -/
theorem State.countedDown_timerDecay (s : State) : s.CountedDown s.timerDecay := by
  unfold State.timerDecay
  refine ⟨fun h => ?_, fun h => ?_, fun h => ?_, fun h => ?_⟩
  · simp [State.delayCountdown_of_due h]
  · simp [State.delayCountdown_of_not_due h]
  · simp [State.soundCountdown_of_due (s := s.delayCountdown) (by simpa using h)]
  · simp [State.soundCountdown_of_not_due (s := s.delayCountdown) (by simpa using h)]

theorem State.countedDown_waitingFrame (s : State) : s.CountedDown s.waitingFrame := by
  simpa [State.CountedDown, State.waitingFrame, State.finishFrame] using
    s.clearPulses.deliverKey.countedDown_timerDecay

theorem State.countedDown_beforeInstruction (s : State) : s.CountedDown s.beforeInstruction :=
  s.clearPulses.countedDown_timerDecay

theorem State.countedDown_idleFrame (s : State) :
    s.CountedDown ({ s.clearPulses.timerDecay with
      accInstr := s.accInstr + s.frameInput.elapsed } : State).finishFrame := by
  simpa [State.CountedDown, State.finishFrame] using s.clearPulses.countedDown_timerDecay

/-! ### Waiting frames one after the other (R177) -/

/-- The machine waits through the frames whose inputs are `now`: none of them delivers a key 0 to 15. -/
structure State.WaitsThrough (s : State) (now later : List FrameInput) : Prop where
  waiting : s.waiting
  inputs : s.inputs = now ++ later
  keyless : ∀ inp ∈ now, ∀ k, inp.key = some k → 15 < k.toNat

section
variable {inp : FrameInput} {now later : List FrameInput}

theorem State.WaitsThrough.frameInput (h : s.WaitsThrough (inp :: now) later) : s.frameInput = inp := by
  simp [State.frameInput, h.inputs]

/-- The first of the frames is a waiting frame, and the machine waits through the others. -/
theorem State.WaitsThrough.next (h : s.WaitsThrough (inp :: now) later) :
    s.waitingFrame.WaitsThrough now later where
  waiting := by
    obtain ⟨hrun, hwait⟩ := h.waiting
    have hno := h.keyless inp List.mem_cons_self
    rw [← h.frameInput] at hno
    exact ⟨by simpa [State.waitingFrame] using hrun, (State.waitingFrame_of_no_key hno).1.trans hwait⟩
  inputs := by simp [State.waitingFrame, State.finishFrame, h.inputs]
  keyless := fun inp' hmem => h.keyless inp' (List.mem_cons_of_mem _ hmem)

@[simp] theorem State.waitingFrame_cfg (s : State) : s.waitingFrame.cfg = s.cfg := by
  simp [State.waitingFrame, State.finishFrame]

/-- Short of one period the delay timer stands and its accumulator takes all the time. -/
theorem run_of_waiting_below_period (h : s.WaitsThrough now later)
    (hlt : s.accDelay + (now.map (·.elapsed)).sum < s.cfg.timerPeriod) :
    ∃ t, core.run now.length s = .next t ∧ t.dt = s.dt ∧
      t.accDelay = s.accDelay + (now.map (·.elapsed)).sum ∧ t.inputs = later := by
  induction now generalizing s with
  | nil => exact ⟨s, run_zero s, rfl, rfl, h.inputs⟩
  | cons inp now ih =>
    rw [List.map_cons, List.sum_cons, ← Nat.add_assoc] at hlt ⊢
    obtain ⟨-, hcount, -, -⟩ := s.countedDown_waitingFrame
    rw [h.frameInput] at hcount
    obtain ⟨hdt, hacc⟩ := hcount (by omega)
    obtain ⟨t, hrun, htdt, htacc, hin⟩ := ih h.next (by simpa [hacc] using hlt)
    exact ⟨t, (run_succ _ (step_of_waiting h.waiting)).trans hrun, htdt.trans hdt,
      by rw [htacc, hacc], hin⟩

/-- At exactly one period the delay timer has counted down once: the frame that completes it counts, and
the frames after it bring no time. -/
theorem run_of_waiting_one_period (h : s.WaitsThrough now later) (hlt : s.accDelay < s.cfg.timerPeriod)
    (hsum : s.accDelay + (now.map (·.elapsed)).sum = s.cfg.timerPeriod) :
    ∃ t, core.run now.length s = .next t ∧ t.dt.toNat = s.dt.toNat - 1 ∧ t.accDelay = 0 ∧
      t.inputs = later := by
  induction now generalizing s with
  | nil => exact absurd hsum (by simpa using hlt.ne)
  | cons inp now ih =>
    rw [List.map_cons, List.sum_cons, ← Nat.add_assoc] at hsum
    have hrest (t : State) (hrun : core.run now.length s.waitingFrame = .next t) :
        core.run (now.length + 1) s = .next t :=
      (run_succ _ (step_of_waiting h.waiting)).trans hrun
    obtain ⟨hdue, hshort, -, -⟩ := s.countedDown_waitingFrame
    rw [h.frameInput] at hdue hshort
    by_cases hfull : s.cfg.timerPeriod ≤ s.accDelay + inp.elapsed
    · obtain ⟨hdt, hacc⟩ := hdue hfull
      obtain ⟨t, hrun, htdt, htacc, hin⟩ :=
        run_of_waiting_below_period h.next (by rw [hacc, State.waitingFrame_cfg]; omega)
      exact ⟨t, hrest t hrun, by rw [htdt, hdt], by omega, hin⟩
    · obtain ⟨hdt, hacc⟩ := hshort (by omega)
      obtain ⟨t, hrun, htdt, htacc, hin⟩ := ih h.next
        (by rw [hacc, State.waitingFrame_cfg]; omega) (by rw [hacc, State.waitingFrame_cfg, hsum])
      exact ⟨t, hrest t hrun, by rw [htdt, hdt], htacc, hin⟩

end

/-! ### The redraw cadence (R180) -/

/-- The interval has passed by the end of the frame (R180; the comparison is D4). -/
abbrev State.redrawDue (s : State) : Prop :=
  s.cfg.redrawInterval ≤ s.accRedraw + s.frameInput.elapsed

/-- The redraw accumulator is cleared exactly when the frame renders. -/
theorem State.finishFrame_accRedraw (h : s.render = false) :
    s.finishFrame.accRedraw =
      if s.finishFrame.render then 0 else s.accRedraw + s.frameInput.elapsed := by
  unfold State.finishFrame State.redrawCadence
  split <;> simp [h]

/-- `u` stands before the redraw cadence of the frame of `s`: nothing rendered yet, and the cadence sees the
interval, the accumulator and the time that `s` holds. -/
structure State.ReachesRedraw (s u : State) : Prop where
  render : u.render = false
  cfg : u.cfg = s.cfg
  accRedraw : u.accRedraw = s.accRedraw
  input : u.frameInput = s.frameInput

theorem State.ReachesRedraw.render_iff (h : s.ReachesRedraw u) :
    u.finishFrame.render = true ↔ s.redrawDue ∧ u.dirty = true := by
  rw [State.finishFrame_render_iff h.render, h.cfg, h.accRedraw, h.input]

theorem State.ReachesRedraw.of_render (h : s.ReachesRedraw u) (hr : u.finishFrame.render = true) :
    s.redrawDue ∧ u.finishFrame.dirty = false ∧ u.finishFrame.accRedraw = 0 := by
  refine ⟨(h.render_iff.mp hr).1, ?_, ?_⟩
  · rw [State.finishFrame_dirty h.render, hr, Bool.not_true, Bool.and_false]
  · rw [State.finishFrame_accRedraw h.render, if_pos hr]

theorem State.ReachesRedraw.of_no_render (h : s.ReachesRedraw u) (hr : u.finishFrame.render = false) :
    u.finishFrame.accRedraw = s.accRedraw + s.frameInput.elapsed ∧
      (s.redrawDue → u.finishFrame.dirty = false) := by
  refine ⟨by simp [State.finishFrame_accRedraw h.render, hr, h.accRedraw, h.input], fun hdue => ?_⟩
  have hclean : ¬ u.dirty = true := fun hd => by simp [h.render_iff.mpr ⟨hdue, hd⟩] at hr
  simp [State.finishFrame_dirty h.render, hclean]

/-- A frame that executes a word is neither a waiting nor an idle one. -/
theorem State.not_ready_of_waiting_or_idle (h : s.waiting ∨ s.idle) : ¬ s.ready := by
  rintro ⟨-, hawake, hfires⟩
  obtain ⟨-, hwait⟩ | ⟨-, -, hshort⟩ := h
  · exact absurd (hawake.symm.trans hwait) nofun
  · omega

/-- Every frame of a running machine ends with the redraw cadence, on `DIRTY` as the frame found it when it
executes nothing, and as the word left it when it executes one. -/
theorem step_reaches_redraw (h : step s = .next t) (hs : s.status = .none) :
    ∃ u : State, t = u.finishFrame ∧ s.ReachesRedraw u ∧
      (s.waiting ∨ s.idle → u.dirty = s.dirty) ∧
      (s.ready → ∃ v, executeWord s.fetchWord s.beforeInstruction = .next v ∧ u.dirty = v.dirty) := by
  obtain ⟨hhalt, -⟩ | ⟨hwait, rfl⟩ | ⟨hidle, rfl⟩ | ⟨hready, v, hv, rfl⟩ := step_cases h
  · exact absurd hs hhalt
  · exact ⟨_, rfl, ⟨by simp, by simp, by simp, by simp⟩, fun _ => by simp,
      fun hr => absurd hr (State.not_ready_of_waiting_or_idle (.inl hwait))⟩
  · exact ⟨_, rfl, ⟨by simp, by simp, by simp, s.clearPulses.frameInput_timerDecay⟩, fun _ => by simp,
      fun hr => absurd hr (State.not_ready_of_waiting_or_idle (.inr hidle))⟩
  · obtain ⟨hcfg, hinputs, hframes, hrender, -, -, hredraw⟩ := executeWord_leaves hv
    refine ⟨_, rfl, ⟨by simp [hrender], by simp [hcfg], by simp [hredraw], ?_⟩,
      fun hn => absurd hready (State.not_ready_of_waiting_or_idle hn), fun _ => ⟨v, hv, by simp⟩⟩
    exact State.frameInput_congr (by simp [hinputs]) (by simp [hframes])

end Sys2Proof.Machine

namespace Sys2Proof.Proofs

open Sys2Proof.Machine

/-- Settles O10. -/
theorem raiseSetsStatusOnce : Obligations.RaiseSetsStatusOnce :=
  fun _ s => ⟨s.raise_of_running, s.raise_of_halted⟩

/-- Settles O25: each halt is one of the cases of a step that halts. -/
theorem haltsOnlyAsNamed : Obligations.HaltsOnlyAsNamed := by
  intro s t hs h
  obtain hnone | ⟨hready, ⟨hover, hcall⟩ | ⟨hunder, hret⟩ | ⟨hout, hpc⟩⟩ := step_halt_cases h hs
  · rw [hnone]; exact ⟨nofun, nofun, nofun, nofun⟩
  · rw [hover]; exact ⟨fun _ => ⟨hready, hcall⟩, nofun, nofun, nofun⟩
  · rw [hunder]; exact ⟨nofun, fun _ => ⟨hready, hret⟩, nofun, nofun⟩
  · rw [hout]; exact ⟨nofun, nofun, fun _ => ⟨hready, hpc⟩, nofun⟩

/-- Settles O24. -/
theorem waitStartsAndEndsOnlyAsNamed : Obligations.WaitStartsAndEndsOnlyAsNamed :=
  fun _ _ h => ⟨step_wait_starts h, step_wait_ends h, step_pc_of_awaiting h⟩

/-- Settles O14, by the countdowns of the three kinds of frame. -/
theorem timersCountDownInEveryFrame : Obligations.TimersCountDownInEveryFrame := by
  rintro s t (⟨hwait | hidle, h⟩ | ⟨-, rfl⟩)
  · cases next_inj ((step_of_waiting hwait).symm.trans h)
    exact s.countedDown_waitingFrame
  · cases next_inj ((step_of_idle hidle).symm.trans h)
    exact s.countedDown_idleFrame
  · exact s.countedDown_beforeInstruction

/-- Settles O16, from an empty accumulator. -/
theorem onePeriodIsOneDecrement : Obligations.OnePeriodIsOneDecrement := by
  intro s now later hwf hwait hacc hin hkeys hsum
  obtain ⟨hperiod, -, -⟩ := hwf
  exact run_of_waiting_one_period ⟨hwait, hin, hkeys⟩ (by rwa [hacc]) (by rwa [hacc, Nat.zero_add])

/-- Settles O15, by the redraw cadence at the end of the frame; a word that leaves a clean display dirty is
CLS or DRW. -/
theorem redrawCadenceOfEveryFrame : Obligations.RedrawCadenceOfEveryFrame := by
  intro s t hs h
  obtain ⟨u, rfl, hreach, hstill, hword⟩ := step_reaches_redraw h hs
  refine ⟨hreach.of_render, hreach.of_no_render, fun hk => ?_, fun hready v hv => ?_,
    fun hready hrender => ?_⟩
  · rw [hreach.render_iff, hstill hk]
  · obtain ⟨v', hv', hdirty⟩ := hword hready
    cases next_inj (hv'.symm.trans hv)
    rw [hreach.render_iff, hdirty]
  · obtain ⟨v, hv, hdirty⟩ := hword hready
    have hshown : v.dirty = true := hdirty ▸ (hreach.render_iff.mp hrender).2
    cases hd : s.dirty with
    | true => exact .inl rfl
    | false => exact .inr (executeWord_dirty_rises hv (by simpa using hd) hshown)

end Sys2Proof.Proofs
end

section
/-! PROOFS. Reset is load (70_reset_and_hazards.md R195, R196): what each address reads as after a load, the
pieces a load resets, and the invariant; the obligation O20. -/

namespace Sys2Proof.Machine

variable {s : State} {prog : List Byte} {a k : Nat}

/-! ### What an address reads as before it is written (10_state.md R36) -/

theorem unlisted_of_lt_font {font : Vector Byte 80} (ha : a < 80) : unlisted font a = font[a] := by
  simp [unlisted, ha]

theorem unlisted_of_font_le {font : Vector Byte 80} (ha : 80 ≤ a) : unlisted font a = 0 := by
  simp [unlisted, ha]

theorem State.memRead_of_mem_nil (hm : s.mem = []) (ha : a < 4096) :
    s.memRead a = unlisted s.cfg.font a := by
  rw [State.memRead, maskAddr, Nat.mod_eq_of_lt ha, hm]
  rfl

/-! ### What a load answers (R195, R196) -/

theorem load_of_fits (s : State) (hlen : prog.length ≤ 3584) : load s prog = .next (s.loaded prog) :=
  if_pos hlen

theorem load_of_too_long (s : State) (hlong : 3584 < prog.length) :
    load s prog = .refused (.programTooLong prog.length) :=
  if_neg (Nat.not_le_of_lt hlong)

/-! ### The state after a load (R195) -/

/-- Of the state before it, a load keeps the parameters and the host's inputs and frame count; beside these,
the memory and the bound, every piece is as after reset (D15; log 6, log 7). -/
theorem State.loaded_eq (s : State) (prog : List Byte) :
    s.loaded prog =
      { State.reset with
          cfg := s.cfg, inputs := s.inputs, frames := s.frames, mem := (s.loaded prog).mem,
          progEnd := (s.loaded prog).progEnd } := by
  rw [State.loaded, State.writeBytes_eq]

@[simp] theorem State.loaded_cfg (s : State) (prog : List Byte) : (s.loaded prog).cfg = s.cfg := by
  rw [State.loaded_eq]

/-- The bound fits in 13 bits for every program that is not refused. -/
theorem State.loaded_progEnd_toNat (s : State) (hlen : prog.length ≤ 3584) :
    (s.loaded prog).progEnd.toNat = 0x200 + prog.length := by
  rw [State.loaded, State.writeBytes_progEnd, BitVec.toNat_ofNat, Nat.mod_eq_of_lt (by omega)]

theorem State.memRead_loaded_program (s : State) (hlen : prog.length ≤ 3584) (hk : k < prog.length) :
    (s.loaded prog).memRead (0x200 + k) = prog[k] :=
  State.memRead_writeBytes_inside _ prog 0x200 k (by omega) hk

/-- Outside the program an address reads as it does before the copy: no byte of a program that is not refused
wraps past the end of memory. -/
theorem State.memRead_loaded_outside (s : State) (hlen : prog.length ≤ 3584) (ha : a < 4096)
    (hout : a < 0x200 ∨ 0x200 + prog.length ≤ a) :
    (s.loaded prog).memRead a = unlisted s.cfg.font a := by
  have hne : ∀ k < prog.length, maskAddr a ≠ maskAddr (0x200 + k) := by
    intro k hk
    simp only [maskAddr]
    omega
  exact (State.memRead_writeBytes_outside _ prog 0x200 a hne).trans (State.memRead_of_mem_nil rfl ha)

theorem State.loaded_memory_wf (s : State) (prog : List Byte) :
    Memory.wf (s.loaded prog).cfg.font (s.loaded prog).mem :=
  State.writeBytes_wf _ 0x200 prog ⟨.nil, by simp [State.reset]⟩

/-- The invariant holds after a load, whatever the state before: the clauses that the parameters, the memory and
the bound enter are settled here, the others are those of the reset state. -/
theorem State.loaded_inv (hlen : prog.length ≤ 3584) (hcfg : s.cfg.wf) : (s.loaded prog).Inv := by
  have hreset : State.reset.Inv := Proofs.resetMeetsInvariant
  have hmem : Memory.wf s.cfg.font (s.loaded prog).mem := by simpa using s.loaded_memory_wf prog
  have hbound : 0x200 ≤ (s.loaded prog).progEnd.toNat ∧ (s.loaded prog).progEnd.toNat ≤ 0x1000 := by
    rw [s.loaded_progEnd_toNat hlen]
    omega
  have ⟨hperiod, hinterval, _⟩ := hcfg
  rw [State.loaded_eq]
  exact { hreset with
    params := hcfg
    memory := hmem
    bound := hbound
    counter := fun _ => ⟨Nat.le_refl _, .inr rfl⟩
    outside := nofun
    accumulators := ⟨hinterval, hperiod, hperiod⟩
    redraw := fun _ => rfl }

end Sys2Proof.Machine

namespace Sys2Proof.Proofs

open Sys2Proof.Machine

/-- Settles O20: the memory by the run of writes over an empty list, the invariant from that of the reset
state. -/
theorem loadSetsWholeStateOrRefuses : Obligations.LoadSetsWholeStateOrRefuses := by
  intro s prog
  refine ⟨fun hlen => ⟨s.loaded prog, load_of_fits s hlen, ?_⟩, load_of_too_long s⟩
  refine ⟨fun k hk => s.memRead_loaded_program hlen hk, fun a ha => ?_, fun a hfont ha hout => ?_,
    s.loaded_progEnd_toNat hlen, State.loaded_inv hlen, s.loaded_eq prog⟩
  · rw [s.memRead_loaded_outside hlen (by omega) (.inl (by omega)), unlisted_of_lt_font ha]
  · rw [s.memRead_loaded_outside hlen ha hout, unlisted_of_font_le hfont]

end Sys2Proof.Proofs
end

section
/-! PROOFS. The words and values the spec writes out: the sample words of T-DEC, O5 (95_test_vectors.md;
30_encoding.md R75 to R83), and the state after reset, O21 (10_state.md R36). -/

namespace Sys2Proof

variable {w : Word} {i : Instr} {e : Reject} {hi lo : Byte} {bytes : List Byte}

/-- The round trip read from the bytes: canonical bytes decode to their instruction, with nothing after it. -/
theorem decodeBytes_of_canonical (h : bytes = encodeBytes i) (hwf : i.wf = true) :
    decodeBytes bytes = .ok (i, []) := by
  simpa [h] using Proofs.decodeOfEncodedInstruction i [] hwf

theorem decodeBytes_of_decodeWord_error (h : decodeWord (wordOfBytes hi lo) = .error e) :
    decodeBytes (hi :: lo :: bytes) = .error e := by
  rw [decodeBytes, h]
  rfl

/-- Family 8 rejects for one reason, the word itself. -/
theorem eq_unrecognised8_of_decode8_error (h : decode8 w = .error e) : e = .unrecognised8 w := by
  unfold decode8 at h
  split_ifs at h
  exact (Except.error.inj h).symm

theorem decodeWord_of_unrecognised8 (hop : fieldOp w = 0x8#4)
    (hn : fieldN w ∈ [0x8#4, 0x9#4, 0xA#4, 0xB#4, 0xC#4, 0xD#4, 0xF#4]) :
    decodeWord w = .error (.unrecognised8 w) := by
  obtain ⟨e, he⟩ := decode8_error_iff.mpr hn
  rw [decodeWord_family8 hop, he, eq_unrecognised8_of_decode8_error he]

end Sys2Proof

namespace Sys2Proof.Proofs

open Sys2Proof.Machine

/-- Settles O5: the six words are canonical, and the seventh is of family 8 with the unrecognised nibble 8. -/
theorem sampleWordsDecode : Obligations.SampleWordsDecode := by
  refine ⟨?drw, ?ldReg, ?cls, ?sys, ?jp, ?ldRegs, ?unrecognised⟩
  case unrecognised =>
    exact decodeBytes_of_decodeWord_error (decodeWord_of_unrecognised8 (by decide) (by decide))
  all_goals exact decodeBytes_of_canonical (by decide) (by decide)

/-- Settles O21: the registers and accumulators as the definition of reset writes them, and the font because
no byte of memory is listed. -/
theorem resetLeavesStatedValues : Obligations.ResetLeavesStatedValues := by
  refine ⟨rfl, rfl, rfl, rfl, rfl, rfl, rfl, rfl, rfl, rfl, rfl, fun a ha => ?font⟩
  rw [State.memRead_of_mem_nil rfl (by omega), unlisted_of_lt_font ha]

end Sys2Proof.Proofs
end
